-- ==== Sys2Proof/Word.lean ====
section
/-! DEFINITION. The word types of the block: a byte is 8 bits in every space (20_memory R40), protocol fields are 16 bits
(30_encoding R70), the expected PDU length is 18 bits (10_state R18). All values are unsigned (00_scope R6). -/

namespace Sys2Proof

/-- One byte, in a buffer or on a link (20_memory R40). -/
abbrev Byte := BitVec 8

/-- A 16-bit protocol field or register (10_state R11). -/
abbrev Word16 := BitVec 16

/-- The VALUE part of EXPLEN (10_state R18). -/
abbrev Word18 := BitVec 18

end Sys2Proof
end

