-- ==== Sys2Proof/Config.lean ====
section
/-! DEFINITION. The spec's parameters (00_scope R5), its closed enumerations (10_state R20, R26, R27, R29, R30; 20_memory R42,
R44, R46), the free draws of the environment (20_memory R49) and the free values of the registers whose reset value is
unspecified (10_state R35). -/

namespace Sys2Proof

/-- The two links of a connection pair: master link `M`, slave link `S` (20_memory R42). -/
inductive LinkId where
  | M
  | S
  deriving DecidableEq, Repr, Inhabited

/-- `CFG.DIR`: 0 `T2R` (MBAP on M, RTU on S), 1 `R2T` (RTU on M, MBAP on S) (10_state R30, 20_memory R42). -/
inductive Dir where
  | t2r
  | r2t
  deriving DecidableEq, Repr

/-- `CSTATE`, the sequencer state (10_state R20). Codes 6 and 7 are never written, so they have no constructor. -/
inductive CState where
  | idle
  | awaitMasterRequest
  | forwardToSlave
  | awaitSlaveResponse
  | forwardToMaster
  | closed
  deriving DecidableEq, Repr

/-- `OUTCOME.CAT`: the RawError categories (10_state R27). -/
inductive Category where
  | reset
  | aborted
  | networkDown
  | notConnected
  | unknown
  deriving DecidableEq, Repr, Inhabited

/-- The six outcome kinds that are fatal to the connection pair (60_exceptions R220, R232). -/
inductive FatalOutcome where
  | disconnected
  | aborted
  | tooMuchData
  | bufferFull
  | crcMismatch
  | rawError (k : Category)
  deriving DecidableEq, Repr, Inhabited

/-- A read outcome: success with the frame length, the one recoverable kind, or a fatal kind (10_state R25, R26;
60_exceptions R220). The set is closed. -/
inductive ReadOutcome where
  | success (len : Nat)
  | timeout
  | fatal (f : FatalOutcome)
  deriving DecidableEq, Repr, Inhabited

/-- `EXPLEN`: `Known(e)` is VALID = 1 with VALUE = e, `Unknown` is VALID = 0 (10_state R18). -/
inductive Expectation where
  | known (e : Word18)
  | unknown
  deriving DecidableEq, Repr, Inhabited

/-- The two events a rule depends on (10_state R29). -/
inductive LogEvent where
  | wCrc
  | wTid
  deriving DecidableEq, Repr

/-- One answer of `LinkRecv` (20_memory R44). A `Data` chunk has at least one byte, so it is its first byte and the rest. -/
inductive RecvAnswer where
  | data (first : Byte) (rest : List Byte)
  | zero
  | timedOut
  | fault (k : Category)
  deriving DecidableEq, Repr, Inhabited

/-- One answer of `LinkSend` (20_memory R46). `reached` says how many bytes of a failed frame the peer got; only a proper
prefix can have reached it (93_implementation_defined U6). -/
inductive SendAnswer where
  | ok
  | fault (k : Category) (reached : Nat)
  deriving DecidableEq, Repr, Inhabited

namespace Config

/-- `CAP`: capacity of RXB and the `cap` the converters pass to both readers (00_scope R5, 10_state R22). -/
abbrev cap : Nat := 260

/-- `TXCAP` = CAP + 4: capacity of TXB (00_scope R5, 10_state R24). -/
abbrev txCap : Nat := 264

/-- `TXID_RESET`: the first transaction id of direction R2T (00_scope R5, 10_state R15). -/
abbrev txidReset : Word16 := 1#16

/-- `SHORT2_KIND`: the kind of the 2-byte malformed condition (00_scope R5, 43_rtu_reader R142). -/
abbrev short2Kind : FatalOutcome := .aborted

/-- Free draw: the answer of a `LinkRecv` for which State holds none (20_memory R49; log 7). The argument is the number of
draws made so far; nothing constrains the value. -/
opaque freeRecv : Nat → RecvAnswer

/-- Free draw: the answer of a `LinkPending` (20_memory R45, R49; 93 U1; log 7). -/
opaque freePending : Nat → Bool

/-- Free draw: the answer of a `LinkSend` (20_memory R46, R49; 93 U6; log 7). -/
opaque freeSend : Nat → SendAnswer

/-- Free draw: how many bytes a `LinkDiscard` removes (20_memory R47, R49; 93 U12; log 9). -/
opaque freeDiscard : Nat → Nat

/-- Free draw: a sample of the cancellation input (10_state R31, 20_memory R49; log 10). -/
opaque freeCancel : Nat → Bool

/-- Free value: CRC at reset, which the spec leaves unspecified (10_state R19, R35; log 5). -/
opaque resetCrc : Word16

/-- Free value: SAVED_TID at reset (10_state R19, R35; log 5). -/
opaque resetSavedTid : Word16

/-- Free value: SAVED_PID at reset (10_state R19, R35; log 5). -/
opaque resetSavedPid : Word16

/-- Free value: SENT_TID at reset (10_state R19, R35; log 5). -/
opaque resetSentTid : Word16

/-- Free value: EXPLEN at reset (10_state R19, R35; log 5). -/
opaque resetExplen : Expectation

/-- Free value: OUTCOME at reset, before its length is held to its range (10_state R25, R35; log 5). -/
opaque resetOutcome : ReadOutcome

end Config

end Sys2Proof
end

