-- ==== Sys2Proof/Syntax.lean ====
section
/-! DEFINITION. The instructions: one constructor per row of spec/opcode_table.json, the sixteen operations of 30_encoding R85 and
the nine estimator rows of R88, each with the operand values its row names. -/

namespace Sys2Proof

/-- One operation of the block with its operands (30_encoding R85, R88). A quantity is `none` where it is absent (44 R160). -/
inductive Instr where
  /-- `CRC16 s` (40_crc R102). -/
  | crc16 (bytes : List Byte)
  /-- `BE16 B, off` (41_field_reader R115). -/
  | be16 (bytes : List Byte) (off : Nat)
  /-- `BE32 B, off` (41_field_reader R116). -/
  | be32 (bytes : List Byte) (off : Nat)
  /-- `BE64 B, off` (41_field_reader R117). -/
  | be64 (bytes : List Byte) (off : Nat)
  /-- `RDMBAP L, cap` (42_mbap_reader R120). -/
  | rdmbap (l : LinkId) (cap : Nat)
  /-- `RDRTU L, cap, exp` (43_rtu_reader R135). -/
  | rdrtu (l : LinkId) (cap : Nat) (exp : Expectation)
  /-- `EST fc, q` (44_length_estimator R160). -/
  | est (fc : Byte) (q : Option Word16)
  /-- `T2R.REQ n` (45_converter_t2r R172). -/
  | t2rReq (n : Nat)
  /-- `T2R.RSP m` (45_converter_t2r R176). -/
  | t2rRsp (m : Nat)
  /-- `R2T.REQ n` (46_converter_r2t R192). -/
  | r2tReq (n : Nat)
  /-- `R2T.RSP m` (46_converter_r2t R199). -/
  | r2tRsp (m : Nat)
  /-- `FLUSH`, always the slave link (47_link_ops R210). -/
  | flush
  /-- `SEND L` (47_link_ops R211). -/
  | send (l : LinkId)
  /-- `TEARDOWN o` after the fatal outcome `o` (47_link_ops R213). -/
  | teardown (o : FatalOutcome)
  /-- `CYC.T2R` (45_converter_t2r R170). -/
  | cycT2r
  /-- `CYC.R2T` (46_converter_r2t R190). -/
  | cycR2t
  /-- Estimator row 0x01, Read Coils (44_length_estimator R161). -/
  | estFc01 (q : Option Word16)
  /-- Estimator row 0x02, Read Discrete Inputs (44_length_estimator R161). -/
  | estFc02 (q : Option Word16)
  /-- Estimator row 0x03, Read Holding Registers (44_length_estimator R162). -/
  | estFc03 (q : Option Word16)
  /-- Estimator row 0x04, Read Input Registers (44_length_estimator R162). -/
  | estFc04 (q : Option Word16)
  /-- Estimator row 0x05, Write Single Coil (44_length_estimator R163). -/
  | estFc05 (q : Option Word16)
  /-- Estimator row 0x06, Write Single Register (44_length_estimator R163). -/
  | estFc06 (q : Option Word16)
  /-- Estimator row 0x0F, Write Multiple Coils (44_length_estimator R163). -/
  | estFc0F (q : Option Word16)
  /-- Estimator row 0x10, Write Multiple Registers (44_length_estimator R163). -/
  | estFc10 (q : Option Word16)
  /-- Estimator default row: every function code the eight rows above do not match (44_length_estimator R164). -/
  | estOther (fc : Byte) (q : Option Word16)
  deriving DecidableEq, Repr

end Sys2Proof
end

