-- ==== Sys2Proof/WellFormed.lean ====
section
/-! DEFINITION. The operand ranges the rules state, independent of any state. -/

namespace Sys2Proof

/-- The eight function codes that have an estimator row of their own (30_encoding R88). -/
def tabledFcs : List Byte := [0x01#8, 0x02#8, 0x03#8, 0x04#8, 0x05#8, 0x06#8, 0x0F#8, 0x10#8]

/-- The operand ranges of each row: field reads inside the data (41 R115 to R118), `0 <= cap <= CAP` (42 R120, 43 R135), frame
lengths `7 <= n <= CAP` (45 R172, 46 R199) and `3 <= m <= CAP` (45 R176, 46 R192), the default estimator row only for codes
no other row matches (44 R164). -/
def Instr.wf : Instr → Bool
  | .crc16 _ => true
  | .be16 bytes off => decide (off + 2 ≤ bytes.length)
  | .be32 bytes off => decide (off + 4 ≤ bytes.length)
  | .be64 bytes off => decide (off + 8 ≤ bytes.length)
  | .rdmbap _ cap => decide (cap ≤ Config.cap)
  | .rdrtu _ cap _ => decide (cap ≤ Config.cap)
  | .est _ _ => true
  | .t2rReq n => decide (7 ≤ n) && decide (n ≤ Config.cap)
  | .t2rRsp m => decide (3 ≤ m) && decide (m ≤ Config.cap)
  | .r2tReq n => decide (3 ≤ n) && decide (n ≤ Config.cap)
  | .r2tRsp m => decide (7 ≤ m) && decide (m ≤ Config.cap)
  | .flush => true
  | .send _ => true
  | .teardown _ => true
  | .cycT2r => true
  | .cycR2t => true
  | .estFc01 _ => true
  | .estFc02 _ => true
  | .estFc03 _ => true
  | .estFc04 _ => true
  | .estFc05 _ => true
  | .estFc06 _ => true
  | .estFc0F _ => true
  | .estFc10 _ => true
  | .estOther fc _ => !(tabledFcs.contains fc)

end Sys2Proof
end

