-- ==== Sys2Proof/Decode.lean ====
section
/-! DEFINITION. Select codes (30_encoding R85 to R88): the decoder, total on any code and operands, the encoder, and the word the
host's opcode table numbers. Operands are values handed over with the code, not bits of it (R86; log 3). -/

namespace Sys2Proof

/-- Which of the two tables a select code is read in: `CMD`, the operations of 30_encoding R85, or `FC`, the estimator's
second-level selector of R88 (log 4). -/
inductive Format where
  | cmd
  | fc
  deriving DecidableEq, Repr

/-- The operand values that can be handed over with a select code (30_encoding R85, R86). A row reads those it names. -/
structure Operands where
  bytes : List Byte
  off : Nat
  link : LinkId
  cap : Nat
  exp : Expectation
  fc : Byte
  q : Option Word16
  len : Nat
  fatal : FatalOutcome
  deriving DecidableEq, Repr

/-- One operation handed over: its table, its 8-bit select code and its operands. -/
structure Cmd where
  format : Format
  code : Byte
  args : Operands
  deriving DecidableEq, Repr

/-- What the decoder answers: an instruction, or the reserved select code it refuses (30_encoding R87). -/
inductive Decoded where
  | ok (i : Instr)
  | reserved (code : Byte)
  deriving DecidableEq, Repr

/-- Operands none of which says anything: what an encoded instruction carries beside the operands its row names. -/
def Operands.blank : Operands :=
  { bytes := [], off := 0, link := .M, cap := 0, exp := .unknown, fc := 0#8, q := none, len := 0, fatal := .disconnected }

/-- All operand words zero: a sequence of eight zero bytes, and zero everywhere else (log 3). -/
def Operands.zeros : Operands := { Operands.blank with bytes := List.replicate 8 0#8 }

/-- The CMD table (30_encoding R85); codes 0x00 and 0x11 to 0xFF are reserved (R87). -/
def decodeCmd (code : Byte) (a : Operands) : Decoded :=
  match code with
  | 0x01#8 => .ok (.crc16 a.bytes)
  | 0x02#8 => .ok (.be16 a.bytes a.off)
  | 0x03#8 => .ok (.be32 a.bytes a.off)
  | 0x04#8 => .ok (.be64 a.bytes a.off)
  | 0x05#8 => .ok (.rdmbap a.link a.cap)
  | 0x06#8 => .ok (.rdrtu a.link a.cap a.exp)
  | 0x07#8 => .ok (.est a.fc a.q)
  | 0x08#8 => .ok (.t2rReq a.len)
  | 0x09#8 => .ok (.t2rRsp a.len)
  | 0x0A#8 => .ok (.r2tReq a.len)
  | 0x0B#8 => .ok (.r2tRsp a.len)
  | 0x0C#8 => .ok .flush
  | 0x0D#8 => .ok (.send a.link)
  | 0x0E#8 => .ok (.teardown a.fatal)
  | 0x0F#8 => .ok .cycT2r
  | 0x10#8 => .ok .cycR2t
  | c => .reserved c

/-- The FC table (30_encoding R88): eight rows and the default row, matched whole; no code is reserved (R79 (e)). -/
def decodeFc (code : Byte) (a : Operands) : Instr :=
  match code with
  | 0x01#8 => .estFc01 a.q
  | 0x02#8 => .estFc02 a.q
  | 0x03#8 => .estFc03 a.q
  | 0x04#8 => .estFc04 a.q
  | 0x05#8 => .estFc05 a.q
  | 0x06#8 => .estFc06 a.q
  | 0x0F#8 => .estFc0F a.q
  | 0x10#8 => .estFc10 a.q
  | c => .estOther c a.q

/-- The decoder: total on any format, code and operands. -/
def decode (c : Cmd) : Decoded :=
  match c.format with
  | .cmd => decodeCmd c.code c.args
  | .fc => .ok (decodeFc c.code c.args)

/-- The command of an instruction, from the same two tables (30_encoding R85, R88). -/
def encode : Instr → Cmd
  | .crc16 bytes => ⟨.cmd, 0x01#8, { Operands.blank with bytes := bytes }⟩
  | .be16 bytes off => ⟨.cmd, 0x02#8, { Operands.blank with bytes := bytes, off := off }⟩
  | .be32 bytes off => ⟨.cmd, 0x03#8, { Operands.blank with bytes := bytes, off := off }⟩
  | .be64 bytes off => ⟨.cmd, 0x04#8, { Operands.blank with bytes := bytes, off := off }⟩
  | .rdmbap l cap => ⟨.cmd, 0x05#8, { Operands.blank with link := l, cap := cap }⟩
  | .rdrtu l cap exp => ⟨.cmd, 0x06#8, { Operands.blank with link := l, cap := cap, exp := exp }⟩
  | .est fc q => ⟨.cmd, 0x07#8, { Operands.blank with fc := fc, q := q }⟩
  | .t2rReq n => ⟨.cmd, 0x08#8, { Operands.blank with len := n }⟩
  | .t2rRsp m => ⟨.cmd, 0x09#8, { Operands.blank with len := m }⟩
  | .r2tReq n => ⟨.cmd, 0x0A#8, { Operands.blank with len := n }⟩
  | .r2tRsp m => ⟨.cmd, 0x0B#8, { Operands.blank with len := m }⟩
  | .flush => ⟨.cmd, 0x0C#8, Operands.blank⟩
  | .send l => ⟨.cmd, 0x0D#8, { Operands.blank with link := l }⟩
  | .teardown o => ⟨.cmd, 0x0E#8, { Operands.blank with fatal := o }⟩
  | .cycT2r => ⟨.cmd, 0x0F#8, Operands.blank⟩
  | .cycR2t => ⟨.cmd, 0x10#8, Operands.blank⟩
  | .estFc01 q => ⟨.fc, 0x01#8, { Operands.blank with q := q }⟩
  | .estFc02 q => ⟨.fc, 0x02#8, { Operands.blank with q := q }⟩
  | .estFc03 q => ⟨.fc, 0x03#8, { Operands.blank with q := q }⟩
  | .estFc04 q => ⟨.fc, 0x04#8, { Operands.blank with q := q }⟩
  | .estFc05 q => ⟨.fc, 0x05#8, { Operands.blank with q := q }⟩
  | .estFc06 q => ⟨.fc, 0x06#8, { Operands.blank with q := q }⟩
  | .estFc0F q => ⟨.fc, 0x0F#8, { Operands.blank with q := q }⟩
  | .estFc10 q => ⟨.fc, 0x10#8, { Operands.blank with q := q }⟩
  | .estOther fc q => ⟨.fc, fc, { Operands.blank with q := q }⟩

/-- The command of a table word: its low 8 bits are the select code of format CMD, operand words of zeros (log 3, log 4). A
word with bits above the select code is no row's, so it gets the reserved code 0x00. -/
def tableCmd (_nbits w : Nat) : Cmd :=
  ⟨.cmd, if w < 256 then BitVec.ofNat 8 w else 0x00#8, Operands.zeros⟩

/-- The instruction the decoder reads from a table word, none where it refuses. -/
def decodeTableWord (nbits w : Nat) : Option Instr :=
  match decode (tableCmd nbits w) with
  | .ok i => some i
  | .reserved _ => none

/-- One row of the opcode table: the codes with `code &&& mask = value` in its format (30_encoding R86, R88). -/
structure TableRow where
  mnemonic : String
  format : Format
  value : Byte
  mask : Byte
  deriving DecidableEq, Repr

/-- The sixteen operation rows (30_encoding R85), mask 0xFF (R86). -/
def cmdRows : List TableRow :=
  [⟨"CRC16", .cmd, 0x01#8, 0xFF#8⟩, ⟨"BE16", .cmd, 0x02#8, 0xFF#8⟩, ⟨"BE32", .cmd, 0x03#8, 0xFF#8⟩,
   ⟨"BE64", .cmd, 0x04#8, 0xFF#8⟩, ⟨"RDMBAP", .cmd, 0x05#8, 0xFF#8⟩, ⟨"RDRTU", .cmd, 0x06#8, 0xFF#8⟩,
   ⟨"EST", .cmd, 0x07#8, 0xFF#8⟩, ⟨"T2R.REQ", .cmd, 0x08#8, 0xFF#8⟩] ++
  [⟨"T2R.RSP", .cmd, 0x09#8, 0xFF#8⟩, ⟨"R2T.REQ", .cmd, 0x0A#8, 0xFF#8⟩, ⟨"R2T.RSP", .cmd, 0x0B#8, 0xFF#8⟩,
   ⟨"FLUSH", .cmd, 0x0C#8, 0xFF#8⟩, ⟨"SEND", .cmd, 0x0D#8, 0xFF#8⟩, ⟨"TEARDOWN", .cmd, 0x0E#8, 0xFF#8⟩,
   ⟨"CYC.T2R", .cmd, 0x0F#8, 0xFF#8⟩, ⟨"CYC.R2T", .cmd, 0x10#8, 0xFF#8⟩]

/-- The nine function code rows (30_encoding R88); the last is the default row, mask 0x00, lowest priority. -/
def fcRows : List TableRow :=
  [⟨"EST.FC01", .fc, 0x01#8, 0xFF#8⟩, ⟨"EST.FC02", .fc, 0x02#8, 0xFF#8⟩, ⟨"EST.FC03", .fc, 0x03#8, 0xFF#8⟩,
   ⟨"EST.FC04", .fc, 0x04#8, 0xFF#8⟩, ⟨"EST.FC05", .fc, 0x05#8, 0xFF#8⟩, ⟨"EST.FC06", .fc, 0x06#8, 0xFF#8⟩,
   ⟨"EST.FC0F", .fc, 0x0F#8, 0xFF#8⟩, ⟨"EST.FC10", .fc, 0x10#8, 0xFF#8⟩, ⟨"EST.OTHER", .fc, 0x00#8, 0x00#8⟩]

/-- The row that takes a command: the first of its format whose masked code matches (30_encoding R86, R88). -/
def rowOf (c : Cmd) : Option TableRow :=
  (cmdRows ++ fcRows).find? fun r => decide (r.format = c.format) && decide (c.code &&& r.mask = r.value)

/-- The mnemonic of an instruction's row. -/
def Instr.mnemonic : Instr → String
  | .crc16 _ => "CRC16"
  | .be16 _ _ => "BE16"
  | .be32 _ _ => "BE32"
  | .be64 _ _ => "BE64"
  | .rdmbap _ _ => "RDMBAP"
  | .rdrtu _ _ _ => "RDRTU"
  | .est _ _ => "EST"
  | .t2rReq _ => "T2R.REQ"
  | .t2rRsp _ => "T2R.RSP"
  | .r2tReq _ => "R2T.REQ"
  | .r2tRsp _ => "R2T.RSP"
  | .flush => "FLUSH"
  | .send _ => "SEND"
  | .teardown _ => "TEARDOWN"
  | .cycT2r => "CYC.T2R"
  | .cycR2t => "CYC.R2T"
  | .estFc01 _ => "EST.FC01"
  | .estFc02 _ => "EST.FC02"
  | .estFc03 _ => "EST.FC03"
  | .estFc04 _ => "EST.FC04"
  | .estFc05 _ => "EST.FC05"
  | .estFc06 _ => "EST.FC06"
  | .estFc0F _ => "EST.FC0F"
  | .estFc10 _ => "EST.FC10"
  | .estOther _ _ => "EST.OTHER"

end Sys2Proof
end

