-- ==== Sys2Proof/Machine/State.lean ====
section
/-! DEFINITION. The state of one block instance as plain data (10_state R10 to R35), its two links and the cancellation input
(10_state R31, R33; 20_memory R42, R43), and the two closed sets of reasons a step can stop. -/

namespace Sys2Proof.Machine

/-- A byte buffer: the bytes that hold a value, as (offset, byte) pairs with strictly rising offsets. An offset that is not
listed holds no value (10_state R23; log 13). -/
abbrev Buffer := List Host.Cell

/-- What a link was asked to do, as far as it is observable (00_scope R9). -/
inductive LinkCall where
  | sent (bytes : List Byte) (accepted : Bool)
  | discarded
  | closed
  deriving DecidableEq, Repr

/-- One link (20_memory R42, R43): its condition, the environment's coming answers, oldest first (R49; log 7, log 9), the
transmit stream as handed over (R46) and the observable calls (00_scope R9; log 16). -/
structure Link where
  isOpen : Bool
  answers : List RecvAnswer
  pendings : List Bool
  sends : List SendAnswer
  discards : List Nat
  tx : List Byte
  calls : List LinkCall
  deriving DecidableEq, Repr

/-- The environment of an instance (00_scope R8 (1)): the two links, the cancellation input as last sampled with its coming
samples (10_state R31; log 10), and the number of free draws made (log 7). -/
structure Env where
  master : Link
  slave : Link
  cancel : Bool
  cancels : List Bool
  draws : Nat
  deriving DecidableEq, Repr

/-- Which of the registers whose reset value is unspecified a rule has written (10_state R19; log 5). No meaning looks at it. -/
structure Written where
  crc : Bool
  savedTid : Bool
  savedPid : Bool
  sentTid : Bool
  explen : Bool
  outcome : Bool
  deriving DecidableEq, Repr

/-- The value the last operation handed back (30_encoding R85, column result; log 15). -/
inductive OpResult where
  | none
  | word16 (v : BitVec 16)
  | word32 (v : BitVec 32)
  | word64 (v : BitVec 64)
  | outcome (o : ReadOutcome)
  | expectation (e : Expectation)
  | sendOk
  | sendError (k : Category)
  deriving DecidableEq, Repr

/-- The state of one block instance. From `dir` to `txb` it is the spec's own (10_state R10, R30); `env` is what it reaches
through its link port and its cancellation input; `outcomes`, `result` and `issue` are the model's (log 16, log 15, log 2). -/
structure State where
  dir : Dir
  cstate : CState
  outcome : ReadOutcome
  warn : BitVec 2
  log : List LogEvent
  rxlen : Nat
  txlen : Nat
  crc : Word16
  txid : Word16
  savedTid : Word16
  savedPid : Word16
  sentTid : Word16
  explen : Expectation
  written : Written
  rxb : Buffer
  txb : Buffer
  env : Env
  outcomes : List ReadOutcome
  result : OpResult
  issue : List Cmd
  deriving DecidableEq, Repr

/-- Why the machine stops with a fault. -/
inductive Fault where
  /-- Raised by a step, or by a `CYC` operation, in `CSTATE = Closed`: the instance performs no further operation (47_link_ops
  R214, 60_exceptions R234; log 14). Safe: the run has ended. -/
  | closed
  deriving DecidableEq, Repr

/-- Why a situation is given no meaning: the spec's `refuse` (00_scope R7), each with a name of its own. All are safe: the
model stops where nothing may be proved. -/
inductive Refusal where
  /-- Raised by exec's arm of an instruction that has no meaning yet; no arm raises it. Safe. -/
  | notModelled (mnemonic : String)
  /-- Raised by a step whose select code is reserved (30_encoding R87, 93 U9). Safe. -/
  | reservedSelect (code : Byte)
  /-- Raised by BE16, BE32, BE64 when the field reaches beyond the data (41_field_reader R118, 93 U10). Safe. -/
  | fieldBeyondData
  /-- Raised by T2R.RSP and R2T.REQ on an RTU frame of fewer than 3 bytes: length minus 2 has no value, or the length cannot
  occur (45 R176, 46 R192, 93 U7; log 17). Safe. -/
  | shortRtuFrame (n : Nat)
  /-- Raised by a converter operation whose frame length lies outside the rule's operand range (45 R172, R176; 46 R192, R199;
  log 18). Safe. -/
  | frameLength (n : Nat)
  /-- Raised by RDMBAP and RDRTU with `cap > CAP` (42 R120, 43 R135; log 18). Safe. -/
  | capacityOperand (cap : Nat)
  /-- Raised by a read of buffer bytes that hold no value (10_state R23, 00_scope R7; log 13). Safe. -/
  | bufferNoValue (off n : Nat)
  /-- Raised by a write beyond a buffer's capacity (00_scope R7); no rule makes one. Safe. -/
  | bufferCapacity (n : Nat)
  /-- Raised by SEND when `1 <= TXLEN <= TXCAP` does not hold (47_link_ops R211; log 18). Safe. -/
  | nothingStaged (txlen : Nat)
  /-- Raised by any link primitive on a closed link: the block calls none (20_memory R43; log 20). Safe. -/
  | linkClosed (l : LinkId)
  /-- Raised by a CYC operation of the direction that CFG.DIR does not select (45 R170, 46 R190: requires CFG.DIR; log 19).
  Safe. -/
  | wrongDirection
  /-- Raised by EST.OTHER with a function code that has a row of its own (30_encoding R88, 44 R164; log 28). Safe. -/
  | notDefaultRow (fc : Byte)
  deriving DecidableEq, Repr

/-- The outcome of a meaning. -/
abbrev Out := Host.Outcome State Fault Refusal

/-- A link as the supervisor hands it over: open (20_memory R43, 70 R256), nothing sent, no answer placed (log 34). -/
def Link.fresh : Link :=
  { isOpen := true, answers := [], pendings := [], sends := [], discards := [], tx := [], calls := [] }

/-- The environment at reset: two fresh links, `cancel` not set (10_state R31, R35; log 34). -/
def Env.fresh : Env := { master := Link.fresh, slave := Link.fresh, cancel := false, cancels := [], draws := 0 }

/-- No unspecified register has been written (10_state R35). -/
def Written.no : Written :=
  { crc := false, savedTid := false, savedPid := false, sentTid := false, explen := false, outcome := false }

/-- OUTCOME at reset: free, with LEN in the range OUTCOME can hold (10_state R25, R35; DESIGN CHOICE, log 5). -/
def resetOutcome : ReadOutcome :=
  match Config.resetOutcome with
  | .success n => .success (min n Config.cap)
  | .timeout => .timeout
  | .fatal f => .fatal f

/-- The state right after reset for a direction (10_state R35, 70 R250 to R252). CRC, SAVED_TID, SAVED_PID, SENT_TID, EXPLEN and
OUTCOME are unspecified and hold free values: DESIGN CHOICE, log 5. -/
def State.resetFor (d : Dir) : State :=
  { dir := d, cstate := .idle, outcome := resetOutcome, warn := 0#2, log := [], rxlen := 0, txlen := 0,
    crc := Config.resetCrc, txid := Config.txidReset, savedTid := Config.resetSavedTid, savedPid := Config.resetSavedPid,
    sentTid := Config.resetSentTid, explen := Config.resetExplen, written := Written.no, rxb := [], txb := [], env := Env.fresh, outcomes := [], result := .none, issue := [] }

/-- The state right after reset. `CFG.DIR` is what the supervisor gives; here `T2R` (DESIGN CHOICE, log 6). -/
def State.reset : State := State.resetFor .t2r

end Sys2Proof.Machine
end

