-- ==== Sys2Proof/Machine/Flags.lean ====
section
/-! DEFINITION. The status registers: the numeric codes and bit fields of OUTCOME, CSTATE, CFG and EXPLEN (10_state R18, R20, R25
to R27, R30), and the two ways status is written: a read outcome and a log event (R25, R28, R29). -/

namespace Sys2Proof.Machine

/-- The code of `OUTCOME.CAT` (10_state R27). -/
def Category.code : Category → BitVec 3
  | .reset => 0#3
  | .aborted => 1#3
  | .networkDown => 2#3
  | .notConnected => 3#3
  | .unknown => 4#3

/-- The code of `OUTCOME.KIND` for a fatal kind (10_state R26). -/
def FatalOutcome.kind : FatalOutcome → BitVec 3
  | .disconnected => 1#3
  | .aborted => 3#3
  | .tooMuchData => 4#3
  | .bufferFull => 5#3
  | .crcMismatch => 6#3
  | .rawError _ => 7#3

/-- `OUTCOME[2:0]` = KIND (10_state R25, R26). -/
def ReadOutcome.kind : ReadOutcome → BitVec 3
  | .success _ => 0#3
  | .timeout => 2#3
  | .fatal f => FatalOutcome.kind f

/-- `OUTCOME[5:3]` = CAT, 0 unless KIND = RawError (10_state R25). -/
def ReadOutcome.cat : ReadOutcome → BitVec 3
  | .fatal (.rawError k) => Category.code k
  | .fatal _ => 0#3
  | .success _ => 0#3
  | .timeout => 0#3

/-- `OUTCOME[14:6]` = LEN, 0 unless KIND = Success (10_state R25). -/
def ReadOutcome.len : ReadOutcome → BitVec 9
  | .success n => BitVec.ofNat 9 n
  | .timeout => 0#9
  | .fatal _ => 0#9

/-- The 16 bits of OUTCOME; bit 15 reads 0 (10_state R25). -/
def ReadOutcome.bits (o : ReadOutcome) : BitVec 16 := 0#1 ++ ReadOutcome.len o ++ ReadOutcome.cat o ++ ReadOutcome.kind o

/-- The code of CSTATE (10_state R20). -/
def CState.code : CState → BitVec 3
  | .idle => 0#3
  | .awaitMasterRequest => 1#3
  | .forwardToSlave => 2#3
  | .awaitSlaveResponse => 3#3
  | .forwardToMaster => 4#3
  | .closed => 5#3

/-- `CFG[0]` = DIR (10_state R30). -/
def Dir.code : Dir → BitVec 1
  | .t2r => 0#1
  | .r2t => 1#1

/-- The 19 bits of EXPLEN (10_state R18). VALUE is meaningful only when VALID = 1, so for `Unknown` it is the argument `dontCare`
(log 26). -/
def Expectation.bits (dontCare : Word18) : Expectation → BitVec 19
  | .known e => 1#1 ++ e
  | .unknown => 0#1 ++ dontCare

/-- The WARN bit of an event: W_CRC bit 0, W_TID bit 1 (10_state R28). -/
def LogEvent.warnBit : LogEvent → BitVec 2
  | .wCrc => 0b01#2
  | .wTid => 0b10#2

/-- `log(e)`: appends to LOG and sets the sticky WARN bit (00_scope R7, 10_state R28, R29). -/
def State.logEvent (s : State) (e : LogEvent) : State :=
  { s with log := s.log ++ [e], warn := s.warn ||| LogEvent.warnBit e }

/-- `return o` of a reader, and the record of a failed SEND: OUTCOME is written (10_state R25); the sequence of outcomes is
observable (00_scope R9). -/
def State.setOutcome (s : State) (o : ReadOutcome) : State :=
  { s with outcome := o, outcomes := s.outcomes ++ [o], written := { s.written with outcome := true } }

end Sys2Proof.Machine
end

