-- ==== Sys2Proof/Machine/Ops.lean ====
section
/-! DEFINITION. The named operations over bytes, buffers, registers and links (00_scope R7, 20_memory R40 to R56), the reader loop
the two frame readers share, the fatal path with the retry beside it (60_exceptions R232, R233), and the fetch (30_encoding
R86). -/

namespace Sys2Proof.Machine

/-- Sequencing of partial operations: a fault or a refusal ends the operation. -/
def andThen {α β : Type} (x : Host.Outcome α Fault Refusal) (k : α → Host.Outcome β Fault Refusal) :
    Host.Outcome β Fault Refusal :=
  match x with
  | .next a => k a
  | .fault r => .fault r
  | .refused r => .refused r

/-! ### Bytes (30_encoding R76) -/

/-- `v[15:8]`. -/
def hiByte (v : Word16) : Byte := v.extractLsb' 8 8

/-- `v[7:0]`. -/
def loByte (v : Word16) : Byte := v.extractLsb' 0 8

/-- The value of a byte sequence read most significant byte first (20_memory R50, 41_field_reader R115 to R117). -/
def beValue (bs : List Byte) : Nat := bs.foldl (fun acc b => acc * 256 + b.toNat) 0

/-- The `n`-byte big-endian field at offset `off` of a sequence (30_encoding R76). -/
def beField (n off : Nat) (bs : List Byte) : Nat := beValue ((bs.drop off).take n)

/-- `be16(B, off)` as a 16-bit value. -/
def be16At (off : Nat) (bs : List Byte) : Word16 := BitVec.ofNat 16 (beField 2 off bs)

/-- A 16-bit value written big-endian: `[v[15:8], v[7:0]]` (30_encoding R76). -/
def beBytes (v : Word16) : List Byte := [hiByte v, loByte v]

/-- The value of the CRC trailer of a frame, `{f[n-1], f[n-2]}`, low byte first (20_memory R51, 40_crc R105). -/
def trailer (frame : List Byte) : Word16 :=
  BitVec.ofNat 16 (beValue (frame.drop (frame.length - 2)).reverse)

/-! ### Buffers (10_state R22 to R24, 00_scope R7) -/

/-- Writes one byte, keeping the offsets strictly rising. -/
def Buffer.put (off : Nat) (b : Byte) : Buffer → Buffer
  | [] => [(off, b)]
  | (o, c) :: rest =>
    if off < o then (off, b) :: (o, c) :: rest
    else if off = o then (off, b) :: rest
    else (o, c) :: Buffer.put off b rest

/-- The byte at an offset, none where the offset holds no value (10_state R23). -/
def Buffer.get (buf : Buffer) (off : Nat) : Option Byte := buf.lookup off

/-- Writes a sequence from an offset on, lowest offset first. -/
def Buffer.putAll : Nat → List Byte → Buffer → Buffer
  | _, [], buf => buf
  | off, b :: bs, buf => Buffer.putAll (off + 1) bs (Buffer.put off b buf)

/-- The `n` bytes from an offset on, none where one of them holds no value. -/
def Buffer.slice (buf : Buffer) : Nat → Nat → Option (List Byte)
  | _, 0 => some []
  | off, n + 1 =>
    match Buffer.get buf off, Buffer.slice buf (off + 1) n with
    | some b, some bs => some (b :: bs)
    | _, _ => none

/-- The canonical form: offsets strictly rising and below the capacity. -/
abbrev Buffer.wf (capacity : Nat) (buf : Buffer) : Prop :=
  buf.Pairwise (fun x y => x.1 < y.1) ∧ ∀ c ∈ buf, c.1 < capacity

/-! ### Register and buffer writes -/

/-- `CSTATE <- c` (00_scope R7). -/
def State.setCState (s : State) (c : CState) : State := { s with cstate := c }

/-- `CRC <- v` (10_state R14). -/
def State.setCrc (s : State) (v : Word16) : State := { s with crc := v, written := { s.written with crc := true } }

/-- `SAVED_TID <- tid`, `SAVED_PID <- pid` (10_state R16). -/
def State.saveIds (s : State) (tid pid : Word16) : State :=
  { s with savedTid := tid, savedPid := pid, written := { s.written with savedTid := true, savedPid := true } }

/-- `SENT_TID <- v` (10_state R17). -/
def State.setSentTid (s : State) (v : Word16) : State :=
  { s with sentTid := v, written := { s.written with sentTid := true } }

/-- `EXPLEN <- e` (10_state R18). -/
def State.setExplen (s : State) (e : Expectation) : State :=
  { s with explen := e, written := { s.written with explen := true } }

/-- `TXID <- v` (10_state R15). -/
def State.setTxid (s : State) (v : Word16) : State := { s with txid := v }

/-- `RXLEN <- n` (10_state R12). -/
def State.setRxlen (s : State) (n : Nat) : State := { s with rxlen := n }

/-- The append of a chunk to RXB with its RXLEN update, one indivisible step (20_memory R54, 42 R124). -/
def State.append (s : State) (c : List Byte) : State :=
  { s with rxb := Buffer.putAll s.rxlen c s.rxb, rxlen := s.rxlen + c.length }

/-- What the operation hands back (log 15). -/
def State.setResult (s : State) (r : OpResult) : State := { s with result := r }

/-- The environment after a link primitive or a sample. -/
def State.setEnv (s : State) (e : Env) : State := { s with env := e }

/-- `MemWrite(TXB, 0, n, frame); TXLEN <- n` (00_scope R7, 10_state R24), refused beyond the capacity. -/
def stage (frame : List Byte) (s : State) : Out :=
  if frame.length ≤ Config.txCap then
    .next { s with txb := Buffer.putAll 0 frame s.txb, txlen := frame.length }
  else .refused (.bufferCapacity frame.length)

/-! ### The link port (20_memory R42 to R49). Every primitive that takes an answer counts one draw (log 7). -/

/-- A link by name. -/
def Env.link (e : Env) : LinkId → Link
  | .M => e.master
  | .S => e.slave

/-- Replaces a link by name. -/
def Env.setLink (e : Env) (l : LinkId) (x : Link) : Env :=
  match l with
  | .M => { e with master := x }
  | .S => { e with slave := x }

/-- One draw has been made. -/
def Env.tick (e : Env) : Env := { e with draws := e.draws + 1 }

/-- The bytes an answer delivers to a read of at most `max` bytes (20_memory R44; log 8). -/
def RecvAnswer.cut (max : Nat) : RecvAnswer → RecvAnswer
  | .data b bs => .data b (bs.take (max - 1))
  | .zero => .zero
  | .timedOut => .timedOut
  | .fault k => .fault k

/-- The bytes an answer holds beyond a read of at most `max` bytes; they stay in the stream, in order (20_memory R44; log 8). -/
def RecvAnswer.leftover (max : Nat) : RecvAnswer → List RecvAnswer
  | .data _ bs =>
    match bs.drop (max - 1) with
    | [] => []
    | c :: cs => [.data c cs]
  | .zero => []
  | .timedOut => []
  | .fault _ => []

/-- The link's coming answer: the oldest placed, else a free draw (20_memory R49). -/
def Env.nextAnswer (e : Env) (l : LinkId) : RecvAnswer := (e.link l).answers.headD (Config.freeRecv e.draws)

/-- The answer of `LinkRecv(L, max)` (20_memory R44). -/
def Env.recvAnswer (e : Env) (l : LinkId) (max : Nat) : RecvAnswer := RecvAnswer.cut max (e.nextAnswer l)

/-- The environment after `LinkRecv(L, max)`: the delivered bytes are gone from the stream (20_memory R44). -/
def Env.afterRecv (e : Env) (l : LinkId) (max : Nat) : Env :=
  (e.setLink l { e.link l with
    answers := RecvAnswer.leftover max (e.nextAnswer l) ++ (e.link l).answers.tail }).tick

/-- The answer of `LinkPending(L)` (20_memory R45). -/
def Env.pendingAnswer (e : Env) (l : LinkId) : Bool := (e.link l).pendings.headD (Config.freePending e.draws)

/-- The environment after `LinkPending(L)`: nothing is removed from the stream (20_memory R45). -/
def Env.afterPending (e : Env) (l : LinkId) : Env :=
  (e.setLink l { e.link l with pendings := (e.link l).pendings.tail }).tick

/-- What reaches the peer of a frame handed to the link: all of it, or on a fault a proper prefix (20_memory R46, 93 U6). -/
def SendAnswer.delivered (bytes : List Byte) : SendAnswer → List Byte
  | .ok => bytes
  | .fault _ reached => bytes.take (min reached (bytes.length - 1))

/-- Whether the link accepted the frame (00_scope R9). -/
def SendAnswer.accepted : SendAnswer → Bool
  | .ok => true
  | .fault _ _ => false

/-- The answer of `LinkSend(L, s)` (20_memory R46). -/
def Env.sendAnswer (e : Env) (l : LinkId) : SendAnswer := (e.link l).sends.headD (Config.freeSend e.draws)

/-- The environment after `LinkSend(L, s)` (20_memory R46). -/
def Env.afterSend (e : Env) (l : LinkId) (bytes : List Byte) : Env :=
  (e.setLink l { e.link l with
    sends := (e.link l).sends.tail
    tx := (e.link l).tx ++ SendAnswer.delivered bytes (e.sendAnswer l)
    calls := (e.link l).calls ++ [.sent bytes (SendAnswer.accepted (e.sendAnswer l))] }).tick

/-- Removes `d` bytes from the front of a stream, as far as its leading chunks hold bytes (20_memory R47; log 9). -/
def dropBytes : Nat → List RecvAnswer → List RecvAnswer
  | 0, as => as
  | d + 1, .data b bs :: as =>
    match (b :: bs).drop (d + 1) with
    | c :: cs => .data c cs :: as
    | [] => dropBytes (d - bs.length) as
  | _ + 1, as => as

/-- The number of bytes a `LinkDiscard(L)` asks to remove (20_memory R47, 93 U12). -/
def Env.discardAmount (e : Env) (l : LinkId) : Nat := (e.link l).discards.headD (Config.freeDiscard e.draws)

/-- The environment after `LinkDiscard(L)` (20_memory R47). -/
def Env.afterDiscard (e : Env) (l : LinkId) : Env :=
  (e.setLink l { e.link l with
    answers := dropBytes (e.discardAmount l) (e.link l).answers
    discards := (e.link l).discards.tail
    calls := (e.link l).calls ++ [.discarded] }).tick

/-- The environment after `LinkClose(L)` (20_memory R48). -/
def Env.afterClose (e : Env) (l : LinkId) : Env :=
  e.setLink l { e.link l with isOpen := false, calls := (e.link l).calls ++ [.closed] }

/-- The sampled value of the cancellation input: once 1 it stays 1 (10_state R31; log 10). -/
def Env.cancelNow (e : Env) : Bool := e.cancel || e.cancels.headD (Config.freeCancel e.draws)

/-- The environment after one sample of the cancellation input (10_state R31). -/
def Env.afterSample (e : Env) : Env := Env.tick { e with cancel := e.cancelNow, cancels := e.cancels.tail }

/-- The block calls no primitive on a closed link (20_memory R43; log 20). -/
def needOpen {α : Type} (l : LinkId) (s : State) (x : Host.Outcome α Fault Refusal) : Host.Outcome α Fault Refusal :=
  if (s.env.link l).isOpen then x else .refused (.linkClosed l)

/-! ### The reader loop (42_mbap_reader R120, 43_rtu_reader R135) -/

/-- The bytes the reader has accumulated, `RXB[0 .. RXLEN-1]`; the reader wrote each of them itself (log 23). -/
def State.rxFrame (s : State) : List Byte := (Buffer.slice s.rxb 0 s.rxlen).getD []

/-- The iterations of a reader: cancel, buffer full, the link's answer, then the reader's own tests on what it has accumulated
(`verdict`), in the order of 42 R129 and 43 R148. Every iteration that goes on has stored at least one byte, so `cap`
iterations fill the buffer: with none left, RXLEN = cap (log 27). -/
def readLoop (l : LinkId) (cap : Nat) (verdict : State → Option ReadOutcome × State) : Nat → State → ReadOutcome × State
  | 0, s =>
    (if s.env.cancelNow then .fatal .aborted else .fatal .bufferFull, s.setEnv s.env.afterSample)
  | room + 1, s =>
    if s.env.cancelNow then (.fatal .aborted, s.setEnv s.env.afterSample)
    else if s.rxlen = cap then (.fatal .bufferFull, s.setEnv s.env.afterSample)
    else
      let e := s.env.afterSample
      let t := s.setEnv (e.afterRecv l (cap - s.rxlen))
      match e.recvAnswer l (cap - s.rxlen) with
      | .zero => (.fatal .disconnected, t)
      | .timedOut => (.timeout, t)
      | .fault k => (.fatal (.rawError k), t)
      | .data b bs =>
        match verdict (t.append (b :: bs)) with
        | (some o, u) => (o, u)
        | (none, u) => readLoop l cap verdict room u

/-- One reader invocation: RXLEN <- 0, the iterations, and the outcome written to OUTCOME (42 R120, R121; 43 R135, R137). -/
def readFrame (l : LinkId) (cap : Nat) (verdict : State → Option ReadOutcome × State) (s : State) :
    Host.Outcome (ReadOutcome × State) Fault Refusal :=
  if cap ≤ Config.cap then
    needOpen l s (.next
      ((readLoop l cap verdict cap (s.setRxlen 0)).1,
       (readLoop l cap verdict cap (s.setRxlen 0)).2.setOutcome (readLoop l cap verdict cap (s.setRxlen 0)).1))
  else .refused (.capacityOperand cap)

/-! ### The fatal path and the retry (60_exceptions R232, R233) -/

/-- TAKING AN EXCEPTION: every fatal outcome closes both links, M first, and makes CSTATE Closed; OUTCOME keeps the outcome,
every other register its value, and there is no handler and no saved return state (47_link_ops R213, 60_exceptions R232).
`_o` is the outcome that caused it, already in OUTCOME. -/
def teardown (_o : FatalOutcome) (s : State) : Out :=
  needOpen .M s (needOpen .S s
    (.next ((s.setEnv ((s.env.afterClose .M).afterClose .S)).setCState .closed)))

/-- RETURNING FROM ONE: after Timeout the sequencer keeps its state and issues the same reader again; nothing was saved, so
nothing is restored (60_exceptions R222, R233; 10_state R21). -/
def retry (s : State) : Out := .next s

/-- What a reading state does with the reader's outcome (45 R173, R175; 46 R193, R197). -/
def afterRead (onSuccess : Nat → State → Out) (p : ReadOutcome × State) : Out :=
  match p.1 with
  | .success n => onSuccess n p.2
  | .timeout => retry p.2
  | .fatal o => teardown o p.2

/-- What a forwarding state does with the answer of SEND (45 R174, R177; 46 R194, R198). -/
def afterSend (onOk : State → Out) (p : Option Category × State) : Out :=
  match p.1 with
  | none => onOk p.2
  | some k => teardown (.rawError k) p.2

/-! ### The fetch (30_encoding R86, 20_memory R59) -/

/-- The operation the sequencer issues by itself: the CYC of CFG.DIR (30_encoding R86, R90 `CYCLE`; 70 R251). -/
def cycleOf : Dir → Instr
  | .t2r => .cycT2r
  | .r2t => .cycR2t

/-- The operation performed next and the state with it taken: the oldest handed over from outside (log 2), else the
sequencer's own cycle (30_encoding R86). -/
def fetch (s : State) : Cmd × State :=
  match s.issue with
  | c :: rest => (c, { s with issue := rest })
  | [] => (encode (cycleOf s.dir), s)

/-- The direction an operation needs: a CYC operation selects the sequencer of its own (45 R170, 46 R190). -/
def dirFor (code : Byte) (d : Dir) : Dir :=
  if code = 0x0F#8 then .t2r else if code = 0x10#8 then .r2t else d

end Sys2Proof.Machine
end

