-- ==== Sys2Proof/Machine/Operands.lean ====
section
/-! DEFINITION. The operand forms: slices of the two buffers (00_scope R7, `MemRead`), frame lengths (45 R172, R176; 46 R192,
R199), and the quantity of a request (45 R172). A register operand is the field of State itself. -/

namespace Sys2Proof.Machine

/-- `MemRead(RXB, off, n)`: refused beyond RXLEN, where RXB holds no value (00_scope R7, 10_state R23). -/
def rxRead (off n : Nat) (s : State) : Host.Outcome (List Byte) Fault Refusal :=
  if off + n ≤ s.rxlen then
    match Buffer.slice s.rxb off n with
    | some bs => .next bs
    | none => .refused (.bufferNoValue off n)
  else .refused (.bufferNoValue off n)

/-- `MemRead(TXB, 0, TXLEN)`: the staged frame (10_state R13, R23, 47_link_ops R211). -/
def txRead (s : State) : Host.Outcome (List Byte) Fault Refusal :=
  match Buffer.slice s.txb 0 s.txlen with
  | some bs => .next bs
  | none => .refused (.bufferNoValue 0 s.txlen)

/-- The length operand of T2R.REQ and R2T.RSP, `7 <= n <= CAP` (45 R172, 46 R199). -/
def mbapLength (n : Nat) (x : Out) : Out :=
  if 7 ≤ n ∧ n ≤ Config.cap then x else .refused (.frameLength n)

/-- The length operand of T2R.RSP and R2T.REQ, `3 <= m <= CAP`; below 3 the length minus 2 has no value or cannot occur (45
R176, 46 R192, 93 U7; log 17). -/
def rtuLength (m : Nat) (x : Out) : Out :=
  if m < 3 then .refused (.shortRtuFrame m)
  else if m ≤ Config.cap then x
  else .refused (.frameLength m)

/-- The quantity of an MBAP request of `n` bytes: present when the PDU has at least 5 bytes, `n >= 12` (45 R172, 44 R166). -/
def requestQuantity (frame : List Byte) : Option Word16 :=
  if 12 ≤ frame.length then some (be16At 10 frame) else none

/-- The six header bytes before the unit id of an MBAP frame: transaction id, protocol id and length, big-endian (30_encoding
R70, R76). -/
def mbapHeader (tid pid : Word16) (len : Nat) : List Byte :=
  beBytes tid ++ beBytes pid ++ beBytes (BitVec.ofNat 16 len)

end Sys2Proof.Machine
end

