-- ==== Sys2Proof/Machine/Crc.lean ====
section
/-! DEFINITION. The CRC Engine (40_crc R100 to R107). -/

namespace Sys2Proof.Machine

/-- One of the eight steps of a byte: shift right, and if the bit shifted out was 1 exclusive-or with 0xA001 (40_crc R101). -/
def crcBit (c : Word16) : Word16 := if c.getLsbD 0 then (c >>> 1) ^^^ 0xA001#16 else c >>> 1

/-- The update of the register by one byte, least significant bit first (40_crc R101; the steps are PRESUMED by the spec
itself, 93 K1; log 32). -/
def crcByte (c : Word16) (b : Byte) : Word16 :=
  crcBit (crcBit (crcBit (crcBit (crcBit (crcBit (crcBit (crcBit (c ^^^ b.setWidth 16))))))))

/-- `CRC16 s`: from 0xFFFF, bytes in offset order (40_crc R100, R102). -/
def crc16 (bytes : List Byte) : Word16 := bytes.foldl crcByte 0xFFFF#16

/-- `CRC.APPEND s` (40_crc R104, 30_encoding R90): the body, then the low byte of its CRC, then the high byte. -/
def rtuFrame (body : List Byte) : List Byte := body ++ [loByte (crc16 body), hiByte (crc16 body)]

/-- The part of a frame its CRC covers: all but the last two bytes (40_crc R105). -/
def crcCovered (frame : List Byte) : List Byte := frame.take (frame.length - 2)

/-- `CRC.CHECK f` for a frame of at least two bytes (40_crc R105, 30_encoding R90). -/
def crcMatches (frame : List Byte) : Bool := decide (crc16 (crcCovered frame) = trailer frame)

/-- `CRC16 s`: writes CRC and nothing else; cannot fail (40_crc R102, R103). -/
def execCrc16 (bytes : List Byte) (s : State) : Out :=
  .next ((s.setCrc (crc16 bytes)).setResult (.word16 (crc16 bytes)))

end Sys2Proof.Machine
end

