-- ==== Sys2Proof/Machine/LinkOps.lean ====
section
/-! DEFINITION. The link operations of the converters (47_link_ops R210 to R215). -/

namespace Sys2Proof.Machine

/-- `FLUSH`: LinkDiscard on the slave link; nothing of the block is written and a fault noticed meanwhile is ignored
(47_link_ops R210). CFG.DIR is not looked at (DESIGN CHOICE, log 36). -/
def flushSlave (s : State) : Out := needOpen .S s (.next (s.setEnv (s.env.afterDiscard .S)))

/-- The state after `LinkSend(L, frame)`: OUTCOME is written on failure only (47_link_ops R211, R212). -/
def recordSend (l : LinkId) (frame : List Byte) (s : State) : Option Category × State :=
  match s.env.sendAnswer l with
  | .ok => (none, s.setEnv (s.env.afterSend l frame))
  | .fault k _ => (some k, (s.setEnv (s.env.afterSend l frame)).setOutcome (.fatal (.rawError k)))

/-- `SEND L` with its answer, none for `Ok` (47_link_ops R211): requires `1 <= TXLEN <= TXCAP`; the whole staged frame goes
in one call; `cancel` is not sampled. -/
def sendStaged (l : LinkId) (s : State) : Host.Outcome (Option Category × State) Fault Refusal :=
  if 1 ≤ s.txlen ∧ s.txlen ≤ Config.txCap then
    needOpen l s (andThen (txRead s) fun frame => .next (recordSend l frame s))
  else .refused (.nothingStaged s.txlen)

/-- What SEND hands back: `Ok` or `RawError(k)` (30_encoding R85). -/
def sendResult : Option Category → OpResult
  | none => .sendOk
  | some k => .sendError k

/-- `FLUSH` (47_link_ops R210). -/
def execFlush (s : State) : Out := andThen (flushSlave s) fun t => .next (t.setResult .none)

/-- `SEND L` (47_link_ops R211). -/
def execSend (l : LinkId) (s : State) : Out :=
  andThen (sendStaged l s) fun p => .next (p.2.setResult (sendResult p.1))

/-- `TEARDOWN o` (47_link_ops R213). -/
def execTeardown (o : FatalOutcome) (s : State) : Out := andThen (teardown o s) fun t => .next (t.setResult .none)

end Sys2Proof.Machine
end

