-- ==== Sys2Proof/Machine/MbapReader.lean ====
section
/-! DEFINITION. The MBAP Frame Reader (42_mbap_reader R120 to R133). -/

namespace Sys2Proof.Machine

/-- The completion tests after a chunk (42_mbap_reader R120, R126, R127): made only with more than 6 bytes; `need` is a natural
number, not reduced (30_encoding R77 (b)). -/
def mbapVerdict (s : State) : Option ReadOutcome × State :=
  (if 6 < s.rxlen then
    if s.rxlen = beField 2 4 s.rxFrame + 6 then some (.success s.rxlen)
    else if beField 2 4 s.rxFrame + 6 < s.rxlen then some (.fatal .tooMuchData)
    else none
   else none, s)

/-- `RDMBAP L, cap` with its outcome (42_mbap_reader R120). -/
def rdMbap (l : LinkId) (cap : Nat) (s : State) : Host.Outcome (ReadOutcome × State) Fault Refusal :=
  readFrame l cap mbapVerdict s

/-- `RDMBAP L, cap` (42_mbap_reader R120). -/
def execRdmbap (l : LinkId) (cap : Nat) (s : State) : Out :=
  andThen (rdMbap l cap s) fun p => .next (p.2.setResult (.outcome p.1))

end Sys2Proof.Machine
end

