-- ==== Sys2Proof/Machine/RtuReader.lean ====
section
/-! DEFINITION. The RTU Frame Reader with CRC validator (43_rtu_reader R135 to R152), both paths. -/

namespace Sys2Proof.Machine

/-- The known-length path (43_rtu_reader R143, R144): exact length with CRC check, too long, the 5-byte shortcut without a
CRC check, else read on. `p` is the LinkPending answer of this iteration. -/
def knownVerdict (e : Word18) (p : Bool) (s : State) : Option ReadOutcome × State :=
  if s.rxlen = e.toNat + 3 then
    (some (if crcMatches s.rxFrame then .success s.rxlen else .fatal .crcMismatch), s.setCrc (crc16 (crcCovered s.rxFrame)))
  else if e.toNat + 3 < s.rxlen then (some (.fatal .tooMuchData), s)
  else if s.rxlen = 5 ∧ p = false then (some (.success 5), s)
  else (none, s)

/-- The unknown-length path (43_rtu_reader R146): quiescence ends the frame; a CRC that fails, or cannot be made, is logged
and the frame is still returned. -/
def unknownVerdict (p : Bool) (s : State) : Option ReadOutcome × State :=
  if p then (none, s)
  else if s.rxlen < 2 then (some (.success s.rxlen), s.logEvent .wCrc)
  else if crcMatches s.rxFrame then (some (.success s.rxlen), s.setCrc (crc16 (crcCovered s.rxFrame)))
  else (some (.success s.rxlen), (s.setCrc (crc16 (crcCovered s.rxFrame))).logEvent .wCrc)

/-- The tests of one iteration with the LinkPending answer in hand (43_rtu_reader R142, R148): the 2-byte condition first. -/
def rtuTests (exp : Expectation) (p : Bool) (s : State) : Option ReadOutcome × State :=
  if s.rxlen = 2 ∧ p = false then (some (.fatal Config.short2Kind), s)
  else
    match exp with
    | .known e => knownVerdict e p s
    | .unknown => unknownVerdict p s

/-- LinkPending is asked exactly once per iteration, right after the chunk is appended, and serves every test (43_rtu_reader
R141). -/
def rtuVerdict (l : LinkId) (exp : Expectation) (s : State) : Option ReadOutcome × State :=
  rtuTests exp (s.env.pendingAnswer l) (s.setEnv (s.env.afterPending l))

/-- `RDRTU L, cap, exp` with its outcome (43_rtu_reader R135). -/
def rdRtu (l : LinkId) (cap : Nat) (exp : Expectation) (s : State) : Host.Outcome (ReadOutcome × State) Fault Refusal :=
  readFrame l cap (rtuVerdict l exp) s

/-- `RDRTU L, cap, exp` (43_rtu_reader R135). -/
def execRdrtu (l : LinkId) (cap : Nat) (exp : Expectation) (s : State) : Out :=
  andThen (rdRtu l cap exp s) fun p => .next (p.2.setResult (.outcome p.1))

end Sys2Proof.Machine
end

