-- ==== Sys2Proof/Machine/ConverterR2t.lean ====
section
/-! DEFINITION. The Frame Converter, direction R2T (46_converter_r2t R190 to R203). -/

namespace Sys2Proof.Machine

/-- `R2T.REQ n` (46 R192): SENT_TID <- TXID, header with that id, protocol id 0 and length n - 2; TXID does not change.
It reads RXB[0 .. n-3] and does not compare `n` with RXLEN, so it runs up to n = RXLEN + 2 (DESIGN CHOICE, log 35).
It does not look at CFG.DIR (DESIGN CHOICE, log 36). -/
def r2tReq (n : Nat) (s : State) : Out :=
  rtuLength n (andThen (rxRead 0 (n - 2) s) fun body =>
    stage (mbapHeader s.txid 0#16 (n - 2) ++ body) (s.setSentTid s.txid))

/-- The transaction id check: a mismatch is logged and nothing else (46 R200). -/
def checkTid (frame : List Byte) (sent : Word16) (s : State) : State :=
  if be16At 0 frame = sent then s else s.logEvent .wTid

/-- `R2T.RSP m` (46 R199): the id check, the six header bytes stripped, a CRC appended. `m` is not compared with RXLEN, so it runs
below RXLEN too (DESIGN CHOICE, log 35), and CFG.DIR is not looked at (DESIGN CHOICE, log 36). -/
def r2tRsp (m : Nat) (s : State) : Out :=
  mbapLength m (andThen (rxRead 0 m s) fun frame =>
    stage (rtuFrame (frame.drop 6)) ((checkTid frame s.sentTid s).setCrc (crc16 (frame.drop 6))))

/-- State AwaitMasterRequest (46 R193): the unknown-length path. -/
def r2tAwaitMaster (s : State) : Out :=
  andThen (rdRtu .M Config.cap .unknown s)
    (afterRead fun n t => andThen (r2tReq n t) fun u => .next (u.setCState .forwardToSlave))

/-- State ForwardToSlave (46 R194, R196): SEND S without a FLUSH; on Ok the transaction id counter advances, wrapping. -/
def r2tForwardSlave (s : State) : Out :=
  andThen (sendStaged .S s) (afterSend fun u => .next ((u.setTxid (u.txid + 1#16)).setCState .awaitSlaveResponse))

/-- State AwaitSlaveResponse (46 R197). -/
def r2tAwaitSlave (s : State) : Out :=
  andThen (rdMbap .S Config.cap s)
    (afterRead fun m t => andThen (r2tRsp m t) fun u => .next (u.setCState .forwardToMaster))

/-- State ForwardToMaster (46 R198). -/
def r2tForwardMaster (s : State) : Out :=
  andThen (sendStaged .M s) (afterSend fun u => .next (u.setCState .idle))

/-- One state rule of the R2T sequencer (46 R190, R191, R193, R194, R197, R198). -/
def stepR2t (s : State) : Out :=
  match s.cstate with
  | .idle => .next (s.setCState .awaitMasterRequest)
  | .awaitMasterRequest => r2tAwaitMaster s
  | .forwardToSlave => r2tForwardSlave s
  | .awaitSlaveResponse => r2tAwaitSlave s
  | .forwardToMaster => r2tForwardMaster s
  | .closed => .fault .closed

/-- `R2T.REQ n` (46 R192). -/
def execR2tReq (n : Nat) (s : State) : Out := andThen (r2tReq n s) fun t => .next (t.setResult .none)

/-- `R2T.RSP m` (46 R199). -/
def execR2tRsp (m : Nat) (s : State) : Out := andThen (r2tRsp m s) fun t => .next (t.setResult .none)

/-- `CYC.R2T` (46 R190): requires CFG.DIR = R2T; one step is one state rule (log 1). -/
def execCycR2t (s : State) : Out :=
  if s.dir = .r2t then andThen (stepR2t s) fun t => .next (t.setResult .none) else .refused .wrongDirection

end Sys2Proof.Machine
end

