-- ==== Sys2Proof/Machine/Estimator.lean ====
section
/-! DEFINITION. The PDU Length Estimator (44_length_estimator R160 to R168): `EST` and its nine rows. Pure: the result is handed
back, no register is written (R160). -/

namespace Sys2Proof.Machine

/-- Bit reads: `2 + ceil(q/8)` = `2 + ((zext_18(q) + 7) >> 3)`; Unknown where the quantity is absent (44 R160, R161, R166). -/
def estBitRead : Option Word16 → Expectation
  | some q => .known (2#18 + ((q.setWidth 18 + 7#18) >>> 3))
  | none => .unknown

/-- Register reads: `2 + 2 * zext_18(q)`; Unknown where the quantity is absent (44 R160, R162, R166). -/
def estRegisterRead : Option Word16 → Expectation
  | some q => .known (2#18 + 2#18 * q.setWidth 18)
  | none => .unknown

/-- Writes: 5, the quantity ignored, present or absent (44 R163). -/
def estEcho (_q : Option Word16) : Expectation := .known 5#18

/-- `EST fc, q` (44_length_estimator R160): the row the function code selects (30_encoding R88). -/
def estimate (fc : Byte) (q : Option Word16) : Expectation :=
  if fc = 0x01#8 ∨ fc = 0x02#8 then estBitRead q
  else if fc = 0x03#8 ∨ fc = 0x04#8 then estRegisterRead q
  else if fc = 0x05#8 ∨ fc = 0x06#8 ∨ fc = 0x0F#8 ∨ fc = 0x10#8 then estEcho q
  else .unknown

/-- `EST fc, q` (44_length_estimator R160). -/
def execEst (fc : Byte) (q : Option Word16) (s : State) : Out := .next (s.setResult (.expectation (estimate fc q)))

/-- Row 0x01, Read Coils (44 R161). -/
def execEstFc01 (q : Option Word16) (s : State) : Out := .next (s.setResult (.expectation (estBitRead q)))

/-- Row 0x02, Read Discrete Inputs (44 R161). -/
def execEstFc02 (q : Option Word16) (s : State) : Out := .next (s.setResult (.expectation (estBitRead q)))

/-- Row 0x03, Read Holding Registers (44 R162). -/
def execEstFc03 (q : Option Word16) (s : State) : Out := .next (s.setResult (.expectation (estRegisterRead q)))

/-- Row 0x04, Read Input Registers (44 R162). -/
def execEstFc04 (q : Option Word16) (s : State) : Out := .next (s.setResult (.expectation (estRegisterRead q)))

/-- Row 0x05, Write Single Coil (44 R163). -/
def execEstFc05 (q : Option Word16) (s : State) : Out := .next (s.setResult (.expectation (estEcho q)))

/-- Row 0x06, Write Single Register (44 R163). -/
def execEstFc06 (q : Option Word16) (s : State) : Out := .next (s.setResult (.expectation (estEcho q)))

/-- Row 0x0F, Write Multiple Coils (44 R163). -/
def execEstFc0F (q : Option Word16) (s : State) : Out := .next (s.setResult (.expectation (estEcho q)))

/-- Row 0x10, Write Multiple Registers (44 R163). -/
def execEstFc10 (q : Option Word16) (s : State) : Out := .next (s.setResult (.expectation (estEcho q)))

/-- The default row, for the codes no other row matches (44 R164). -/
def execEstOther (fc : Byte) (_q : Option Word16) (s : State) : Out :=
  if tabledFcs.contains fc then .refused (.notDefaultRow fc) else .next (s.setResult (.expectation .unknown))

end Sys2Proof.Machine
end

