-- ==== Sys2Proof/Machine/ConverterT2r.lean ====
section
/-! DEFINITION. The Frame Converter, direction T2R (45_converter_t2r R170 to R180). -/

namespace Sys2Proof.Machine

/-- The expectation T2R.REQ computes from the request: Unknown for an empty PDU, else EST of the function code and, when
present, the quantity (45 R172). -/
def requestExpectation (frame : List Byte) : Expectation :=
  match frame.drop 7 with
  | [] => .unknown
  | fc :: _ => estimate fc (requestQuantity frame)

/-- `T2R.REQ n` (45 R172): ids saved, the six header bytes stripped, a CRC appended, the expectation stored. `n` is
not compared with RXLEN, so it runs below RXLEN too (DESIGN CHOICE, log 35), and CFG.DIR is not looked at (DESIGN CHOICE,
log 36). -/
def t2rReq (n : Nat) (s : State) : Out :=
  mbapLength n (andThen (rxRead 0 n s) fun frame =>
    andThen (stage (rtuFrame (frame.drop 6)) ((s.saveIds (be16At 0 frame) (be16At 2 frame)).setCrc (crc16 (frame.drop 6))))
      fun t => .next (t.setExplen (requestExpectation frame)))

/-- `T2R.RSP m` (45 R176): header rebuilt from SAVED_TID and SAVED_PID with length m - 2, the CRC bytes dropped. It reads
RXB[0 .. m-3] and does not compare `m` with RXLEN, so it runs up to m = RXLEN + 2 (DESIGN CHOICE, log 35). It does not
look at CFG.DIR (DESIGN CHOICE, log 36). -/
def t2rRsp (m : Nat) (s : State) : Out :=
  rtuLength m (andThen (rxRead 0 (m - 2) s) fun body => stage (mbapHeader s.savedTid s.savedPid (m - 2) ++ body) s)

/-- State AwaitMasterRequest (45 R173). -/
def t2rAwaitMaster (s : State) : Out :=
  andThen (rdMbap .M Config.cap s)
    (afterRead fun n t => andThen (t2rReq n t) fun u => .next (u.setCState .forwardToSlave))

/-- State ForwardToSlave (45 R174): FLUSH, then SEND S. -/
def t2rForwardSlave (s : State) : Out :=
  andThen (flushSlave s) fun t => andThen (sendStaged .S t) (afterSend fun u => .next (u.setCState .awaitSlaveResponse))

/-- State AwaitSlaveResponse (45 R175): the RTU response with the stored expectation. -/
def t2rAwaitSlave (s : State) : Out :=
  andThen (rdRtu .S Config.cap s.explen s)
    (afterRead fun m t => andThen (t2rRsp m t) fun u => .next (u.setCState .forwardToMaster))

/-- State ForwardToMaster (45 R177): SEND M, and the cycle is complete. -/
def t2rForwardMaster (s : State) : Out :=
  andThen (sendStaged .M s) (afterSend fun u => .next (u.setCState .idle))

/-- One state rule of the T2R sequencer (45 R170, R171, R173, R174, R175, R177). -/
def stepT2r (s : State) : Out :=
  match s.cstate with
  | .idle => .next (s.setCState .awaitMasterRequest)
  | .awaitMasterRequest => t2rAwaitMaster s
  | .forwardToSlave => t2rForwardSlave s
  | .awaitSlaveResponse => t2rAwaitSlave s
  | .forwardToMaster => t2rForwardMaster s
  | .closed => .fault .closed

/-- `T2R.REQ n` (45 R172). -/
def execT2rReq (n : Nat) (s : State) : Out := andThen (t2rReq n s) fun t => .next (t.setResult .none)

/-- `T2R.RSP m` (45 R176). -/
def execT2rRsp (m : Nat) (s : State) : Out := andThen (t2rRsp m s) fun t => .next (t.setResult .none)

/-- `CYC.T2R` (45 R170): requires CFG.DIR = T2R; one step is one state rule (log 1). -/
def execCycT2r (s : State) : Out :=
  if s.dir = .t2r then andThen (stepT2r s) fun t => .next (t.setResult .none) else .refused .wrongDirection

end Sys2Proof.Machine
end

