-- ==== Sys2Proof/Machine/FieldReader.lean ====
section
/-! DEFINITION. The Big-Endian Field Reader (41_field_reader R115 to R119): pure operations, refused where the field reaches beyond
the data (R118). -/

namespace Sys2Proof.Machine

/-- `BE16 B, off` (41_field_reader R115). -/
def execBe16 (bytes : List Byte) (off : Nat) (s : State) : Out :=
  if off + 2 ≤ bytes.length then .next (s.setResult (.word16 (BitVec.ofNat 16 (beField 2 off bytes))))
  else .refused .fieldBeyondData

/-- `BE32 B, off` (41_field_reader R116). -/
def execBe32 (bytes : List Byte) (off : Nat) (s : State) : Out :=
  if off + 4 ≤ bytes.length then .next (s.setResult (.word32 (BitVec.ofNat 32 (beField 4 off bytes))))
  else .refused .fieldBeyondData

/-- `BE64 B, off` (41_field_reader R117). -/
def execBe64 (bytes : List Byte) (off : Nat) (s : State) : Out :=
  if off + 8 ≤ bytes.length then .next (s.setResult (.word64 (BitVec.ofNat 64 (beField 8 off bytes))))
  else .refused .fieldBeyondData

end Sys2Proof.Machine
end

