-- ==== Sys2Proof/Machine/Dispatch.lean ====
section
/-! DEFINITION. One arm per instruction: its meaning. -/

namespace Sys2Proof.Machine

def exec (i : Instr) (s : State) : Host.Outcome State Fault Refusal :=
  match i with
  | .crc16 bytes => Sys2Proof.Machine.execCrc16 bytes s
  | .be16 bytes off => Sys2Proof.Machine.execBe16 bytes off s
  | .be32 bytes off => Sys2Proof.Machine.execBe32 bytes off s
  | .be64 bytes off => Sys2Proof.Machine.execBe64 bytes off s
  | .rdmbap l cap => Sys2Proof.Machine.execRdmbap l cap s
  | .rdrtu l cap exp => Sys2Proof.Machine.execRdrtu l cap exp s
  | .est fc q => Sys2Proof.Machine.execEst fc q s
  | .t2rReq n => Sys2Proof.Machine.execT2rReq n s
  | .t2rRsp m => Sys2Proof.Machine.execT2rRsp m s
  | .r2tReq n => Sys2Proof.Machine.execR2tReq n s
  | .r2tRsp m => Sys2Proof.Machine.execR2tRsp m s
  | .flush => Sys2Proof.Machine.execFlush s
  | .send l => Sys2Proof.Machine.execSend l s
  | .teardown o => Sys2Proof.Machine.execTeardown o s
  | .cycT2r => Sys2Proof.Machine.execCycT2r s
  | .cycR2t => Sys2Proof.Machine.execCycR2t s
  | .estFc01 q => Sys2Proof.Machine.execEstFc01 q s
  | .estFc02 q => Sys2Proof.Machine.execEstFc02 q s
  | .estFc03 q => Sys2Proof.Machine.execEstFc03 q s
  | .estFc04 q => Sys2Proof.Machine.execEstFc04 q s
  | .estFc05 q => Sys2Proof.Machine.execEstFc05 q s
  | .estFc06 q => Sys2Proof.Machine.execEstFc06 q s
  | .estFc0F q => Sys2Proof.Machine.execEstFc0F q s
  | .estFc10 q => Sys2Proof.Machine.execEstFc10 q s
  | .estOther fc q => Sys2Proof.Machine.execEstOther fc q s

end Sys2Proof.Machine
end

