-- ==== Sys2Proof/Machine/Step.lean ====
section
/-! DEFINITION. One step of the instance: nothing in Closed (47_link_ops R214), else the operation performed next (30_encoding
R86), decoded and run. -/

namespace Sys2Proof.Machine

/-- One step. In `Closed` the instance performs no further operation (47_link_ops R214; log 14); a reserved select code is
refused (30_encoding R87). -/
def step (s : State) : Host.Outcome State Fault Refusal :=
  if s.cstate = .closed then .fault .closed
  else
    match decode (fetch s).1 with
    | .ok i => exec i (fetch s).2
    | .reserved c => .refused (.reservedSelect c)

/-- `s` with the operation of a table word handed over as the one performed next; for a CYC operation `CFG.DIR` selects its
sequencer (log 2). -/
def State.withFetchWord (s : State) (nbits w : Nat) : State :=
  { s with issue := [tableCmd nbits w], dir := dirFor (tableCmd nbits w).code s.dir }

end Sys2Proof.Machine
end

