-- ==== Sys2Proof/Safety.lean ====
section
/-! DEFINITION. What a good state is (`Inv`) and what may end a run that started in one: the terms the whole-machine statements
use. -/

namespace Sys2Proof.Machine

/-- The states between a request's conversion and the end of its cycle. -/
def midExchange (c : CState) : Bool :=
  match c with
  | .forwardToSlave => true
  | .awaitSlaveResponse => true
  | .forwardToMaster => true
  | .idle => false
  | .awaitMasterRequest => false
  | .closed => false

/-- A good state. The lengths keep their ranges (10_state R12, R13), both buffers keep the canonical form inside their
capacity and hold every byte below their length (R22 to R24), OUTCOME.LEN fits (R25), WARN mirrors LOG (R28, R29), the links
are open exactly while CSTATE is not Closed (20_memory R43, 47 R213), and while a request is being served a frame is staged
and the registers its response needs are written (R16 to R19). -/
structure Inv (s : State) : Prop where
  rxlen_le : s.rxlen ≤ Config.cap
  txlen_le : s.txlen ≤ Config.txCap
  rxb_wf : Buffer.wf Config.cap s.rxb
  txb_wf : Buffer.wf Config.txCap s.txb
  rxb_held : ∀ i < s.rxlen, (Buffer.get s.rxb i).isSome
  txb_held : ∀ i < s.txlen, (Buffer.get s.txb i).isSome
  outcome_len : ∀ n, s.outcome = .success n → n ≤ Config.cap
  warn_crc : s.warn.getLsbD 0 = s.log.contains .wCrc
  warn_tid : s.warn.getLsbD 1 = s.log.contains .wTid
  master_open : s.env.master.isOpen = decide (s.cstate ≠ .closed)
  slave_open : s.env.slave.isOpen = decide (s.cstate ≠ .closed)
  staged : midExchange s.cstate = true → 1 ≤ s.txlen
  saved : s.dir = .t2r → midExchange s.cstate = true →
    s.written.savedTid = true ∧ s.written.savedPid = true ∧ s.written.explen = true
  sent : s.dir = .r2t → midExchange s.cstate = true → s.written.sentTid = true

/-- What a step of the sequencer from a good state may answer: a next state that is good again, or the one situation the spec gives
no meaning, a received RTU frame of one byte (93 U7). -/
def SafeAnswer (o : Out) : Prop :=
  match o with
  | .next t => Inv t
  | .fault _ => False
  | .refused r => r = .shortRtuFrame 1

end Sys2Proof.Machine
end

