-- ==== Sys2Proof/Certificates/Slice0/Obligations.lean ====
section
/-! DEFINITION. The statements for the provers. The definitions of `Sys2Proof.Spec` write rules of the spec out a second time, in
the spec's own shape, so that the statements compare the machine with them. -/

namespace Sys2Proof.Spec

open Sys2Proof.Machine

/-! ### Rules written out a second time -/

/-- One of the eight iterations of 40_crc R101. -/
def crcStep (c : Word16) : Word16 := if c.getLsbD 0 = true then (c >>> 1) ^^^ 0xA001#16 else c >>> 1

/-- `crc_byte(c, b)` of 40_crc R101. -/
def crcByte (c : Word16) (b : Byte) : Word16 := Nat.iterate crcStep 8 (c ^^^ b.setWidth 16)

/-- The register after the bytes, taken in offset order, from a start value (40_crc R102). -/
def crcFrom (c : Word16) : List Byte → Word16
  | [] => c
  | b :: bs => crcFrom (crcByte c b) bs

/-- The CRC check of 40_crc R105 on a frame of at least two bytes: its last two bytes are the low, then the high byte of the CRC
of all before them. -/
def CrcOk (frame : List Byte) : Prop :=
  ∃ body, frame = body ++ [loByte (crc16 body), hiByte (crc16 body)]

/-- The expectation of a request whose bytes after the six header bytes are these: unit id, function code, two bytes, the
quantity (45 R172, 30_encoding R73). -/
def requestExpectation : List Byte → Expectation
  | _ :: fc :: _ :: _ :: qhi :: qlo :: _ => estimate fc (some (qhi ++ qlo))
  | _ :: fc :: _ => estimate fc none
  | _ => .unknown

/-- Buffer bytes `0 .. bs.length-1` are the sequence. -/
def Holds (buf : Buffer) (bs : List Byte) : Prop := ∀ i < bs.length, Buffer.get buf i = bs[i]?

/-- Both links of the pair are open (20_memory R43). -/
def BothOpen (s : State) : Prop := s.env.master.isOpen = true ∧ s.env.slave.isOpen = true

/-- What a send leaves of the environment (20_memory R41, R46; 47_link_ops R211): on the link it sends on, whether it is open, what
is unread, what LinkPending and LinkDiscard will answer, and of the send answers all but the one taken; the other link;
`cancel` and its coming samples. -/
def SendLeaves (l : LinkId) (e e' : Env) : Prop :=
  (e'.link l).isOpen = (e.link l).isOpen ∧ (e'.link l).answers = (e.link l).answers ∧
  (e'.link l).pendings = (e.link l).pendings ∧ (e'.link l).discards = (e.link l).discards ∧
  (e'.link l).sends = (e.link l).sends.tail ∧ (∀ m : LinkId, m ≠ l → e'.link m = e.link m) ∧
  e'.cancel = e.cancel ∧ e'.cancels = e.cancels

/-- A link after LinkClose (20_memory R48): closed, the call seen by its peer, nothing sent. -/
def closedLink (x : Link) : Link := { x with isOpen := false, calls := x.calls ++ [.closed] }

/-- The state after TEARDOWN (47_link_ops R213). -/
def tornDown (s : State) : State :=
  { s with env := { s.env with master := closedLink s.env.master, slave := closedLink s.env.slave }, cstate := .closed }

/-- The environment of a reader iteration after its sample of `cancel` and its LinkRecv (42 R120, 43 R135). -/
def received (l : LinkId) (cap : Nat) (s : State) : State := s.setEnv (s.env.afterSample.afterRecv l (cap - s.rxlen))

/-- The answer of that LinkRecv, which asks for all the room left (42 R124). -/
def answer (l : LinkId) (cap : Nat) (s : State) : RecvAnswer := s.env.afterSample.recvAnswer l (cap - s.rxlen)

/-- The iteration goes on to its LinkRecv: not cancelled, the buffer not full. -/
def Reads (cap : Nat) (s : State) : Prop := s.env.cancelNow = false ∧ s.rxlen ≠ cap

/-- `be16(RXB, 4)` as a natural number. -/
def LengthField (s : State) (v : Nat) : Prop :=
  ∃ hi lo, Buffer.get s.rxb 4 = some hi ∧ Buffer.get s.rxb 5 = some lo ∧ v = hi.toNat * 256 + lo.toNat

/-- A run of the RDMBAP pseudocode from the top of its loop (42_mbap_reader R120): the outcome and the state it returns in. -/
inductive MbapRun (l : LinkId) (cap : Nat) : State → ReadOutcome → State → Prop where
  | aborted (s : State) : s.env.cancelNow = true → MbapRun l cap s (.fatal .aborted) (s.setEnv s.env.afterSample)
  | bufferFull (s : State) : s.env.cancelNow = false → s.rxlen = cap →
      MbapRun l cap s (.fatal .bufferFull) (s.setEnv s.env.afterSample)
  | disconnected (s : State) : Reads cap s → answer l cap s = .zero →
      MbapRun l cap s (.fatal .disconnected) (received l cap s)
  | timedOut (s : State) : Reads cap s → answer l cap s = .timedOut → MbapRun l cap s .timeout (received l cap s)
  | rawError (s : State) (k : Category) : Reads cap s → answer l cap s = .fault k →
      MbapRun l cap s (.fatal (.rawError k)) (received l cap s)
  | success (s u : State) (b : Byte) (bs : List Byte) (v : Nat) : Reads cap s → answer l cap s = .data b bs →
      u = (received l cap s).append (b :: bs) → 6 < u.rxlen → LengthField u v → u.rxlen = v + 6 →
      MbapRun l cap s (.success u.rxlen) u
  | tooMuchData (s u : State) (b : Byte) (bs : List Byte) (v : Nat) : Reads cap s → answer l cap s = .data b bs →
      u = (received l cap s).append (b :: bs) → 6 < u.rxlen → LengthField u v → v + 6 < u.rxlen →
      MbapRun l cap s (.fatal .tooMuchData) u
  | readOnShort (s u t : State) (b : Byte) (bs : List Byte) (o : ReadOutcome) : Reads cap s → answer l cap s = .data b bs →
      u = (received l cap s).append (b :: bs) → u.rxlen ≤ 6 → MbapRun l cap u o t → MbapRun l cap s o t
  | readOnLong (s u t : State) (b : Byte) (bs : List Byte) (v : Nat) (o : ReadOutcome) : Reads cap s →
      answer l cap s = .data b bs → u = (received l cap s).append (b :: bs) → 6 < u.rxlen → LengthField u v →
      u.rxlen < v + 6 → MbapRun l cap u o t → MbapRun l cap s o t

/-- A chunk is appended and LinkPending is asked once, answering `p` (43 R141). -/
def Chunk (l : LinkId) (cap : Nat) (s u : State) (p : Bool) : Prop :=
  Reads cap s ∧ ∃ b bs, answer l cap s = .data b bs ∧
    p = ((received l cap s).append (b :: bs)).env.pendingAnswer l ∧
    u = ((received l cap s).append (b :: bs)).setEnv (((received l cap s).append (b :: bs)).env.afterPending l)

/-- Zero or more iterations that stored a chunk (43 R140, R141), from one state to another. -/
inductive Chunks (l : LinkId) (cap : Nat) : State → State → Prop where
  | none (s : State) : Chunks l cap s s
  | more (s u t : State) (p : Bool) : Chunk l cap s u p → Chunks l cap u t → Chunks l cap s t

/-- The accumulated bytes are these. -/
def Frame (s : State) (bs : List Byte) : Prop := bs.length = s.rxlen ∧ Holds s.rxb bs

/-- A run of the RDRTU pseudocode from the top of its loop (43_rtu_reader R135): the outcome and the state it returns in. -/
inductive RtuRun (l : LinkId) (cap : Nat) (exp : Expectation) : State → ReadOutcome → State → Prop where
  | aborted (s : State) : s.env.cancelNow = true → RtuRun l cap exp s (.fatal .aborted) (s.setEnv s.env.afterSample)
  | bufferFull (s : State) : s.env.cancelNow = false → s.rxlen = cap →
      RtuRun l cap exp s (.fatal .bufferFull) (s.setEnv s.env.afterSample)
  | disconnected (s : State) : Reads cap s → answer l cap s = .zero →
      RtuRun l cap exp s (.fatal .disconnected) (received l cap s)
  | timedOut (s : State) : Reads cap s → answer l cap s = .timedOut → RtuRun l cap exp s .timeout (received l cap s)
  | rawError (s : State) (k : Category) : Reads cap s → answer l cap s = .fault k →
      RtuRun l cap exp s (.fatal (.rawError k)) (received l cap s)
  | short2 (s u : State) : Chunk l cap s u false → u.rxlen = 2 → RtuRun l cap exp s (.fatal .aborted) u
  | exact (s u : State) (p : Bool) (e : Word18) (bs : List Byte) : Chunk l cap s u p → exp = .known e →
      u.rxlen = e.toNat + 3 → Frame u bs → CrcOk bs →
      RtuRun l cap exp s (.success u.rxlen) (u.setCrc (crc16 (bs.take (u.rxlen - 2))))
  | mismatch (s u : State) (p : Bool) (e : Word18) (bs : List Byte) : Chunk l cap s u p → exp = .known e →
      u.rxlen = e.toNat + 3 → Frame u bs → ¬CrcOk bs →
      RtuRun l cap exp s (.fatal .crcMismatch) (u.setCrc (crc16 (bs.take (u.rxlen - 2))))
  | tooMuchData (s u : State) (p : Bool) (e : Word18) : Chunk l cap s u p → exp = .known e →
      ¬(u.rxlen = 2 ∧ p = false) → e.toNat + 3 < u.rxlen → RtuRun l cap exp s (.fatal .tooMuchData) u
  | shortcut (s u : State) (e : Word18) : Chunk l cap s u false → exp = .known e → u.rxlen = 5 → 5 < e.toNat + 3 →
      RtuRun l cap exp s (.success 5) u
  | quietGood (s u : State) (bs : List Byte) : Chunk l cap s u false → exp = .unknown → u.rxlen ≠ 2 → Frame u bs →
      CrcOk bs → RtuRun l cap exp s (.success u.rxlen) (u.setCrc (crc16 (bs.take (u.rxlen - 2))))
  | quietBad (s u : State) (bs : List Byte) : Chunk l cap s u false → exp = .unknown → 2 < u.rxlen → Frame u bs →
      ¬CrcOk bs →
      RtuRun l cap exp s (.success u.rxlen) ((u.setCrc (crc16 (bs.take (u.rxlen - 2)))).logEvent .wCrc)
  | quietOne (s u : State) : Chunk l cap s u false → exp = .unknown → u.rxlen < 2 →
      RtuRun l cap exp s (.success u.rxlen) (u.logEvent .wCrc)
  | readOnKnown (s u t : State) (p : Bool) (e : Word18) (o : ReadOutcome) : Chunk l cap s u p → exp = .known e →
      u.rxlen < e.toNat + 3 → ¬(u.rxlen = 2 ∧ p = false) → ¬(u.rxlen = 5 ∧ p = false) → RtuRun l cap exp u o t →
      RtuRun l cap exp s o t
  | readOnUnknown (s u t : State) (o : ReadOutcome) : Chunk l cap s u true → exp = .unknown → RtuRun l cap exp u o t →
      RtuRun l cap exp s o t

/-- The bytes a stream holds before its first answer that is no data. -/
def unread : List RecvAnswer → List Byte
  | .data b bs :: as => b :: bs ++ unread as
  | _ => []

/-- What a stream holds from its first answer that is no data on. -/
def pastUnread : List RecvAnswer → List RecvAnswer
  | .data _ _ :: as => pastUnread as
  | as => as

/-- What a reader leaves alone: everything but RXB, RXLEN, OUTCOME, CRC, WARN, LOG, the environment and what is handed back. -/
def ReaderLeaves (s t : State) : Prop :=
  t.dir = s.dir ∧ t.cstate = s.cstate ∧ t.txlen = s.txlen ∧ t.txid = s.txid ∧ t.savedTid = s.savedTid ∧
  t.savedPid = s.savedPid ∧ t.sentTid = s.sentTid ∧ t.explen = s.explen ∧ t.txb = s.txb ∧ t.issue = s.issue ∧
  t.written.savedTid = s.written.savedTid ∧ t.written.savedPid = s.written.savedPid ∧
  t.written.sentTid = s.written.sentTid ∧ t.written.explen = s.written.explen

/-- Values for the registers whose reset value is unspecified (10_state R35). -/
structure Unspecified where
  crc : Word16
  savedTid : Word16
  savedPid : Word16
  sentTid : Word16
  explen : Expectation
  outcome : ReadOutcome

/-- The state with these values in the registers that no rule has written yet (10_state R19). -/
def Unspecified.into (v : Unspecified) (s : State) : State :=
  { s with
    crc := if s.written.crc then s.crc else v.crc
    savedTid := if s.written.savedTid then s.savedTid else v.savedTid
    savedPid := if s.written.savedPid then s.savedPid else v.savedPid
    sentTid := if s.written.sentTid then s.sentTid else v.sentTid
    explen := if s.written.explen then s.explen else v.explen
    outcome := if s.written.outcome then s.outcome else v.outcome }

/-- The order of the loop (10_state R20, 45 R170). -/
def succState : CState → CState
  | .idle => .awaitMasterRequest
  | .awaitMasterRequest => .forwardToSlave
  | .forwardToSlave => .awaitSlaveResponse
  | .awaitSlaveResponse => .forwardToMaster
  | .forwardToMaster => .idle
  | .closed => .closed

/-- The two states that read a frame. -/
def reading (c : CState) : Prop := c = .awaitMasterRequest ∨ c = .awaitSlaveResponse

/-- `k` steps, none of which stops. -/
def Steps : Nat → State → State → Prop
  | 0, s, t => t = s
  | k + 1, s, t => ∃ u, step s = .next u ∧ Steps k u t

end Sys2Proof.Spec

open Sys2Proof Sys2Proof.Machine Sys2Proof.Spec

/-! ### Encoding -/

/-- Decode and encode agree (30_encoding R85, R88): decoding the command of a well-formed instruction gives it back, with
every operand. -/
def Obligations.DecodeOfEncodeIsTheInstruction : Prop :=
  ∀ i : Instr, i.wf = true → decode (encode i) = .ok i

/-- No two select codes of a table stand for one instruction (30_encoding R86, R88): an instruction's own command has the format
and the select code it was decoded from. -/
def Obligations.SelectCodeDeterminedByInstruction : Prop :=
  ∀ (c : Cmd) (i : Instr), decode c = .ok i → (encode i).format = c.format ∧ (encode i).code = c.code

/-- 30_encoding R87: select codes 0x00 and 0x11 to 0xFF are reserved; given one the model refuses; the block itself never issues
one. That a step is given one through `issue` is the model's test port (log 2). -/
def Obligations.ReservedSelectCodesAreRefused : Prop :=
  (∀ (code : Byte) (a : Operands), decode ⟨.cmd, code, a⟩ = .reserved code ↔ code.toNat = 0 ∨ 0x11 ≤ code.toNat) ∧
  (∀ (s : State) (code : Byte) (a : Operands) (rest : List Cmd), s.cstate ≠ .closed → s.issue = ⟨.cmd, code, a⟩ :: rest →
    (code.toNat = 0 ∨ 0x11 ≤ code.toNat) → step s = .refused (.reservedSelect code)) ∧
  (∀ s : State, s.issue = [] → ∃ i, decode (fetch s).1 = .ok i)

/-- Select codes written out from the tables of 30_encoding R85 and R88 decode to the instruction they stand for. That a bare table
word is read in format CMD is the model's choice (log 4), and so are the zero operands it gets (log 3). -/
def Obligations.TableCodesDecode : Prop :=
  decodeTableWord 8 0b00000101 = some (.rdmbap .M 0) ∧ decodeTableWord 8 0b00001100 = some .flush ∧
  decodeTableWord 8 0b00010000 = some .cycR2t ∧ decodeTableWord 8 0b00010001 = none ∧
  decode ⟨.cmd, 0b00000111#8, { Operands.blank with fc := 0x03#8, q := some 10#16 }⟩ = .ok (.est 0x03#8 (some 10#16)) ∧
  decode ⟨.fc, 0b00001111#8, { Operands.blank with q := none }⟩ = .ok (.estFc0F none) ∧
  decode ⟨.fc, 0b10011001#8, { Operands.blank with q := none }⟩ = .ok (.estOther 0x99#8 none)

/-! ### Step, reset, whole machine -/

/-- A step runs the decoded instruction: outside Closed, what the fetch gives is decoded and run on the state the fetch leaves;
the fetch takes the oldest operation handed over, else the cycle of CFG.DIR and changes nothing (30_encoding R86; log 2). -/
def Obligations.StepRunsTheDecodedInstruction : Prop :=
  (∀ (s : State) (i : Instr), s.cstate ≠ .closed → decode (fetch s).1 = .ok i → step s = exec i (fetch s).2) ∧
  (∀ (s : State) (c : Cmd) (rest : List Cmd), s.issue = c :: rest → fetch s = (c, { s with issue := rest })) ∧
  (∀ s : State, s.issue = [] → fetch s = (encode (if s.dir = .t2r then .cycT2r else .cycR2t), s))

/-- 30_encoding R86: after reset the sequencer performs CYC.T2R or CYC.R2T, as CFG.DIR says. -/
def Obligations.SequencerPerformsTheCycleOfItsDirection : Prop :=
  ∀ s : State, s.issue = [] → s.cstate ≠ .closed →
    (s.dir = .t2r → step s = exec .cycT2r s) ∧ (s.dir = .r2t → step s = exec .cycR2t s)

/-- 47_link_ops R214: after TEARDOWN the instance performs no further operation. That the stop is the fault `closed` is the
model's reading (log 14). -/
def Obligations.ClosedIsTerminal : Prop :=
  (∀ s : State, s.cstate = .closed → step s = .fault .closed) ∧
  (∀ s : State, s.cstate = .closed → s.dir = .t2r → exec .cycT2r s = .fault .closed) ∧
  (∀ s : State, s.cstate = .closed → s.dir = .r2t → exec .cycR2t s = .fault .closed)

/-- 10_state R35: the state after reset, for the direction the supervisor gives. That State.reset is the one of direction T2R is
the model's choice (log 6). -/
def Obligations.ResetLeavesTheSpecifiedState : Prop :=
  State.reset = State.resetFor .t2r ∧
  ∀ d : Dir, (State.resetFor d).dir = d ∧ (State.resetFor d).cstate = .idle ∧ (State.resetFor d).txid = 0x0001#16 ∧
    (State.resetFor d).rxlen = 0 ∧ (State.resetFor d).txlen = 0 ∧ (State.resetFor d).warn = 0b00#2 ∧
    (State.resetFor d).log = [] ∧
    (State.resetFor d).written = ⟨false, false, false, false, false, false⟩ ∧
    (∀ off, Buffer.get (State.resetFor d).rxb off = none) ∧ (∀ off, Buffer.get (State.resetFor d).txb off = none)

/-- The reset state, for either direction, is a good state (10_state R35). Its links are open by 20_memory R43 (the environment at
reset is log 34); that OUTCOME, which R35 leaves unspecified, has a length of at most CAP there is the model's choice (log 5). -/
def Obligations.ResetIsGood : Prop := ∀ d : Dir, Inv (State.resetFor d)

/-- Every step keeps a good state good, whichever operations are handed over. -/
def Obligations.EveryStepKeepsGoodStates : Prop :=
  ∀ s t : State, Inv s → step s = .next t → Inv t

/-- From a good state the sequencer's own step always answers a next state, a good one again, but for the one situation the spec
gives no meaning: a received RTU frame of one byte (93 U7; log 17). So no other refusal of the model is ever reached by the block
itself: no buffer byte is read before it is written (10_state R23), no link primitive is called on a closed
link (20_memory R43), no buffer overflows. -/
def Obligations.SequencerNeverStuckFromGoodStates : Prop :=
  ∀ s : State, Inv s → s.issue = [] → s.cstate ≠ .closed → SafeAnswer (step s)

/-- 10_state R30: CFG[0] is DIR, 0 for T2R and 1 for R2T; CAP is 260; CFG never changes after reset. -/
def Obligations.ConfigurationNeverChanges : Prop :=
  Dir.code .t2r = 0#1 ∧ Dir.code .r2t = 1#1 ∧ Config.cap = 260 ∧ ∀ s t : State, step s = .next t → t.dir = s.dir

/-- 10_state R31: once 1, `cancel` stays 1. The form of the input is the model's (log 10). -/
def Obligations.CancelNeverReturnsToZero : Prop :=
  ∀ s t : State, step s = .next t → s.env.cancel = true → t.env.cancel = true

/-- A set WARN bit stays set and LOG only grows, whatever is executed (10_state R28, R29). -/
def Obligations.WarningsAreStickyAndLogOnlyGrows : Prop :=
  ∀ (i : Instr) (s t : State), exec i s = .next t → s.log <+: t.log ∧ t.warn &&& s.warn = s.warn

/-- CSTATE changes only by the two CYC operations and TEARDOWN, and the sequencer's own step moves to the successor, keeps a
reading state, or closes (10_state R21, 47_link_ops R213). -/
def Obligations.SequencerStateMovesOnlyInItsLoop : Prop :=
  (∀ (i : Instr) (s t : State), exec i s = .next t → t.cstate ≠ s.cstate →
    i = .cycT2r ∨ i = .cycR2t ∨ ∃ o, i = .teardown o) ∧
  (∀ s t : State, s.issue = [] → step s = .next t →
    t.cstate = succState s.cstate ∨ (t.cstate = s.cstate ∧ reading s.cstate) ∨ t.cstate = .closed)

/-- TXID changes only by CYC.R2T, when the request has been sent with Ok, and then by one, wrapping at 16 bits (46 R196; in
direction T2R it is never written, 10_state R15). -/
def Obligations.TransactionIdAdvancesOnlyAfterASentRequest : Prop :=
  ∀ (i : Instr) (s t : State), exec i s = .next t →
    t.txid = s.txid ∨
    (i = .cycR2t ∧ s.dir = .r2t ∧ s.cstate = .forwardToSlave ∧ t.cstate = .awaitSlaveResponse ∧
      s.env.sendAnswer .S = .ok ∧ t.txid.toNat = (s.txid.toNat + 1) % 65536)

/-- Direction R2T discards nothing on either link (46 R194, 91 N9). -/
def Obligations.ReverseDirectionNeverDiscards : Prop :=
  ∀ s t : State, s.issue = [] → s.dir = .r2t → step s = .next t → ∀ l : LinkId,
    ((t.env.link l).calls.count .discarded) = ((s.env.link l).calls.count .discarded)

/-! ### CRC Engine -/

/-- 40_crc R102: CRC16 answers the CRC of the sequence by the procedure of R101 and writes CRC and nothing else. -/
def Obligations.CrcOperationComputesTheStandardCrc : Prop :=
  ∀ (bytes : List Byte) (s : State),
    exec (.crc16 bytes) s = .next { s with
      crc := crcFrom 0xFFFF#16 bytes
      written := { s.written with crc := true }
      result := .word16 (crcFrom 0xFFFF#16 bytes) }

/-- 40_crc R103: the empty sequence gives 0xFFFF, a zero byte is not a no-op, and the result depends on the sequence alone. -/
def Obligations.CrcCornerCases : Prop :=
  (∀ s : State, ∃ t, exec (.crc16 []) s = .next t ∧ t.crc = 0xFFFF#16) ∧
  (∀ s : State, ∃ t, exec (.crc16 [0x00#8]) s = .next t ∧ t.crc = 0x40BF#16) ∧
  (∀ (bytes : List Byte) (s t : State), ∃ s' t', exec (.crc16 bytes) s = .next s' ∧ exec (.crc16 bytes) t = .next t' ∧
    s'.crc = t'.crc ∧ s'.result = t'.result)

/-- 40_crc R106: a frame built by CRC.APPEND passes CRC.CHECK, and the engine run over the whole of it leaves 0x0000. -/
def Obligations.AppendedFramePassesTheCheckAndLeavesZero : Prop :=
  ∀ (body : List Byte) (s : State),
    crcMatches (body ++ [loByte (crc16 body), hiByte (crc16 body)]) = true ∧
    ∃ t, exec (.crc16 (body ++ [loByte (crc16 body), hiByte (crc16 body)])) s = .next t ∧ t.crc = 0x0000#16

/-- 40_crc R105: the check passes exactly when the last two bytes are the low, then the high byte of the CRC of all before
them; on two bytes, exactly when they are FF FF. -/
def Obligations.CrcCheckComparesLowByteFirst : Prop :=
  (∀ (body : List Byte) (lo hi : Byte), crcMatches (body ++ [lo, hi]) = true ↔
    lo = (crc16 body).extractLsb' 0 8 ∧ hi = (crc16 body).extractLsb' 8 8) ∧
  (∀ lo hi : Byte, crcMatches [lo, hi] = true ↔ lo = 0xFF#8 ∧ hi = 0xFF#8)

/-- 40_crc R107: the corrected reference vector, and its wire order. -/
def Obligations.ReferenceVectorIsTheCorrectedOne : Prop :=
  crc16 [0x01#8, 0x03#8, 0x00#8, 0x00#8, 0x00#8, 0x0A#8] = 0xCDC5#16 ∧
  rtuFrame [0x01#8, 0x03#8, 0x00#8, 0x00#8, 0x00#8, 0x0A#8] =
    [0x01#8, 0x03#8, 0x00#8, 0x00#8, 0x00#8, 0x0A#8, 0xC5#8, 0xCD#8]

/-! ### Field Reader -/

/-- 41_field_reader R115, R116, R117: the field read at an offset is its bytes, the one at the lowest offset most significant;
nothing but what is handed back changes. -/
def Obligations.FieldsAreReadBigEndian : Prop :=
  (∀ (p q : List Byte) (b0 b1 : Byte) (s : State),
    exec (.be16 (p ++ [b0, b1] ++ q) p.length) s = .next { s with result := .word16 (b0 ++ b1) }) ∧
  (∀ (p q : List Byte) (b0 b1 b2 b3 : Byte) (s : State),
    exec (.be32 (p ++ [b0, b1, b2, b3] ++ q) p.length) s = .next { s with result := .word32 (b0 ++ b1 ++ b2 ++ b3) }) ∧
  (∀ (p q : List Byte) (b0 b1 b2 b3 b4 b5 b6 b7 : Byte) (s : State),
    exec (.be64 (p ++ [b0, b1, b2, b3, b4, b5, b6, b7] ++ q) p.length) s =
      .next { s with result := .word64 (b0 ++ b1 ++ b2 ++ b3 ++ b4 ++ b5 ++ b6 ++ b7) })

/-- 41_field_reader R118: the operations are pure, at even and odd offsets alike, and a read beyond the data is refused. -/
def Obligations.FieldReaderIsPureAndRefusesBeyondTheData : Prop :=
  ∀ (bytes : List Byte) (off : Nat) (s t : State),
    (off + 2 ≤ bytes.length → ∃ v, exec (.be16 bytes off) s = .next { s with result := .word16 v } ∧
      exec (.be16 bytes off) t = .next { t with result := .word16 v }) ∧
    (off + 4 ≤ bytes.length → ∃ v, exec (.be32 bytes off) s = .next { s with result := .word32 v } ∧
      exec (.be32 bytes off) t = .next { t with result := .word32 v }) ∧
    (off + 8 ≤ bytes.length → ∃ v, exec (.be64 bytes off) s = .next { s with result := .word64 v } ∧
      exec (.be64 bytes off) t = .next { t with result := .word64 v }) ∧
    (bytes.length < off + 2 → exec (.be16 bytes off) s = .refused .fieldBeyondData) ∧
    (bytes.length < off + 4 → exec (.be32 bytes off) s = .refused .fieldBeyondData) ∧
    (bytes.length < off + 8 → exec (.be64 bytes off) s = .refused .fieldBeyondData)

/-! ### Length Estimator -/

/-- 44 R161 (and R166): EST of 0x01 and 0x02, and their rows, give 2 + ceil(q/8); Unknown without a quantity; nothing but what
is handed back changes. -/
def Obligations.BitReadRowsEstimateTwoPlusEighth : Prop :=
  ∀ (i : Option Word16 → Instr), i ∈ [Instr.est 0x01#8, Instr.est 0x02#8, Instr.estFc01, Instr.estFc02] → ∀ s : State,
    exec (i none) s = .next { s with result := .expectation .unknown } ∧
    ∀ q : Word16, ∃ e : Word18, e.toNat = 2 + (q.toNat + 7) / 8 ∧
      exec (i (some q)) s = .next { s with result := .expectation (.known e) }

/-- 44 R162 (and R166): EST of 0x03 and 0x04, and their rows, give 2 + 2 q, not reduced; Unknown without a quantity. -/
def Obligations.RegisterReadRowsEstimateTwoPlusDouble : Prop :=
  ∀ (i : Option Word16 → Instr), i ∈ [Instr.est 0x03#8, Instr.est 0x04#8, Instr.estFc03, Instr.estFc04] → ∀ s : State,
    exec (i none) s = .next { s with result := .expectation .unknown } ∧
    ∀ q : Word16, ∃ e : Word18, e.toNat = 2 + 2 * q.toNat ∧
      exec (i (some q)) s = .next { s with result := .expectation (.known e) }

/-- 44 R163: EST of the four write codes, and their rows, give 5, the quantity ignored, present or absent. -/
def Obligations.WriteRowsEstimateFive : Prop :=
  ∀ (i : Option Word16 → Instr), i ∈ [Instr.est 0x05#8, Instr.est 0x06#8, Instr.est 0x0F#8, Instr.est 0x10#8,
      Instr.estFc05, Instr.estFc06, Instr.estFc0F, Instr.estFc10] → ∀ (q : Option Word16) (s : State),
    exec (i q) s = .next { s with result := .expectation (.known 5#18) }

/-- 44 R164: every other function code, 0x00, 0x07 to 0x0E, 0x11 to 0xFF, gives Unknown, by EST and by the default row. -/
def Obligations.OtherFunctionCodesAreUnknown : Prop :=
  ∀ (fc : Byte) (q : Option Word16) (s : State),
    (fc.toNat = 0 ∨ (0x07 ≤ fc.toNat ∧ fc.toNat ≤ 0x0E) ∨ 0x11 ≤ fc.toNat) →
    exec (.est fc q) s = .next { s with result := .expectation .unknown } ∧
    exec (.estOther fc q) s = .next { s with result := .expectation .unknown }

/-! ### The two readers -/

/-- 42_mbap_reader R120: on an open link, with a capacity in range, RDMBAP completes, returns what a run of the pseudocode from
RXLEN = 0 returns, and writes it to OUTCOME. -/
def Obligations.MbapReaderRefinesItsPseudocode : Prop :=
  ∀ (l : LinkId) (cap : Nat) (s : State), cap ≤ 260 → (s.env.link l).isOpen = true →
    ∃ o u, MbapRun l cap (s.setRxlen 0) o u ∧
      exec (.rdmbap l cap) s = .next ((u.setOutcome o).setResult (.outcome o))

/-- 43_rtu_reader R135: on an open link, with a capacity in range, RDRTU completes on either path, returns what a run of the
pseudocode from RXLEN = 0 returns, and writes it to OUTCOME. -/
def Obligations.RtuReaderRefinesItsPseudocode : Prop :=
  ∀ (l : LinkId) (cap : Nat) (exp : Expectation) (s : State), cap ≤ 260 → (s.env.link l).isOpen = true →
    ∃ o u, RtuRun l cap exp (s.setRxlen 0) o u ∧
      exec (.rdrtu l cap exp) s = .next ((u.setOutcome o).setResult (.outcome o))

/-- 42_mbap_reader R126: a Success(n) of RDMBAP has n = RXLEN = be16(RXB, 4) + 6, 7 <= n <= cap, and RXB holds the frame. -/
def Obligations.MbapSuccessIsDelimitedByTheLengthField : Prop :=
  ∀ (l : LinkId) (cap : Nat) (s t : State) (n : Nat), exec (.rdmbap l cap) s = .next t → t.outcome = .success n →
    n = t.rxlen ∧ 7 ≤ n ∧ n ≤ cap ∧ LengthField t (n - 6) ∧ ∀ i < n, (Buffer.get t.rxb i).isSome

/-- A Success(n) of RDRTU is returned right after a last chunk and its LinkPending answer `p`, in the iterations that begin with
RXLEN = 0. With Known(e) it is the exact length with a CRC that checks, whatever `p`, or the five bytes of the exception
shortcut with `p` false (43 R143, R144); with Unknown `p` is false, the quiet end, and the length is RXLEN and never 2 (43 R142,
R146). -/
def Obligations.RtuSuccessIsExactOrShortcutOrQuiet : Prop :=
  ∀ (l : LinkId) (cap : Nat) (exp : Expectation) (s t : State) (n : Nat), exec (.rdrtu l cap exp) s = .next t →
    t.outcome = .success n →
    n = t.rxlen ∧ 1 ≤ n ∧ n ≤ cap ∧ n ≠ 2 ∧ (∀ i < n, (Buffer.get t.rxb i).isSome) ∧
    ∃ (u v : State) (p : Bool), Chunks l cap (s.setRxlen 0) u ∧ Chunk l cap u v p ∧
      t.env = v.env ∧ t.rxlen = v.rxlen ∧ t.rxb = v.rxb ∧
      (exp = .unknown → p = false) ∧
      ∀ e, exp = .known e →
        (n = e.toNat + 3 ∧ ∃ bs, bs.length = n ∧ Holds t.rxb bs ∧ CrcOk bs) ∨ (n = 5 ∧ n < e.toNat + 3 ∧ p = false)

/-- 42 R122, 43 R138: `cancel` sampled as 1 at the top gives Aborted without reading the link, on either reader. -/
def Obligations.CancelledReaderReadsNothing : Prop :=
  ∀ (l : LinkId) (cap : Nat) (exp : Expectation) (i : Instr) (s : State), i ∈ [Instr.rdmbap l cap, Instr.rdrtu l cap exp] →
    cap ≤ 260 → (s.env.link l).isOpen = true → s.env.cancelNow = true →
    ∃ t, exec i s = .next t ∧ t.outcome = .fatal .aborted ∧ t.rxlen = 0 ∧ t.rxb = s.rxb ∧
      ∀ m : LinkId, t.env.link m = s.env.link m

/-- Which kinds a reader can end with (60_exceptions R228): RDMBAP never CrcMismatch; RDRTU without a known length neither
CrcMismatch nor TooMuchData, and only it raises a warning. -/
def Obligations.ReaderOutcomesAreThoseOfTheTable : Prop :=
  (∀ (l : LinkId) (cap : Nat) (s t : State), exec (.rdmbap l cap) s = .next t →
    t.outcome ≠ .fatal .crcMismatch ∧ t.log = s.log ∧ t.warn = s.warn) ∧
  (∀ (l : LinkId) (cap : Nat) (s t : State), exec (.rdrtu l cap .unknown) s = .next t →
    t.outcome ≠ .fatal .crcMismatch ∧ t.outcome ≠ .fatal .tooMuchData ∧ (t.log = s.log ∨ t.log = s.log ++ [.wCrc])) ∧
  (∀ (l : LinkId) (cap : Nat) (e : Word18) (s t : State), exec (.rdrtu l cap (.known e)) s = .next t →
    t.log = s.log ∧ t.warn = s.warn)

/-- The frame of the readers: a completed RDMBAP or RDRTU leaves every register but RXLEN, OUTCOME, CRC, WARN and LOG alone, all
of TXB, every byte of RXB from the final RXLEN on, and the other link; the link it reads stays open with nothing sent; RDMBAP
leaves CRC alone too (42 R120, 43 R135, Writes). -/
def Obligations.ReadersChangeOnlyWhatTheyWrite : Prop :=
  ∀ (l : LinkId) (cap : Nat) (exp : Expectation) (i : Instr) (s t : State),
    i ∈ [Instr.rdmbap l cap, Instr.rdrtu l cap exp] → exec i s = .next t →
    ReaderLeaves s t ∧ (∀ a, t.rxlen ≤ a → Buffer.get t.rxb a = Buffer.get s.rxb a) ∧
    (∀ m : LinkId, m ≠ l → t.env.link m = s.env.link m) ∧
    (t.env.link l).isOpen = (s.env.link l).isOpen ∧ (t.env.link l).tx = (s.env.link l).tx ∧
    (t.env.link l).calls = (s.env.link l).calls ∧ (t.env.link l).sends = (s.env.link l).sends ∧
    (t.env.link l).discards = (s.env.link l).discards ∧
    (i = .rdmbap l cap → t.crc = s.crc ∧ t.written.crc = s.written.crc)

/-- A capacity beyond CAP is outside the operand's range and refused; a reader on a closed link is refused (42 R120, 43 R135,
20_memory R43; log 18, log 20). -/
def Obligations.ReaderPreconditionsAreRefused : Prop :=
  ∀ (l : LinkId) (cap : Nat) (exp : Expectation) (s : State),
    (260 < cap → exec (.rdmbap l cap) s = .refused (.capacityOperand cap) ∧
      exec (.rdrtu l cap exp) s = .refused (.capacityOperand cap)) ∧
    (cap ≤ 260 → (s.env.link l).isOpen = false → exec (.rdmbap l cap) s = .refused (.linkClosed l) ∧
      exec (.rdrtu l cap exp) s = .refused (.linkClosed l))

/-! ### The link port -/

/-- 20_memory R44 on placed answers: a chunk has 1 to `max` bytes, which are the next bytes of the stream in order and are
removed from it; the other three answers remove no byte. That a longer placed chunk is cut is log 8. -/
def Obligations.ReceiveDeliversTheNextBytesOfTheStream : Prop :=
  ∀ (e : Env) (l : LinkId) (max : Nat), 1 ≤ max → (e.link l).answers ≠ [] →
    (∀ b bs, e.recvAnswer l max = .data b bs → (b :: bs).length ≤ max ∧
      (b :: bs) ++ unread ((e.afterRecv l max).link l).answers = unread (e.link l).answers) ∧
    (∀ a, (e.link l).answers.head? = some a → (∀ b bs, a ≠ .data b bs) →
      e.recvAnswer l max = a ∧ ((e.afterRecv l max).link l).answers = (e.link l).answers.tail)

/-- FLUSH completes on an open slave link: of the unread bytes a prefix is removed, of the length the link chooses, and what lies
past them stays; nothing else of the links but the recorded call changes, and nothing of the block (47_link_ops R210, 20_memory
R47; which answers count as unread is log 9; that it runs in direction R2T is log 36). -/
def Obligations.FlushDropsAPrefixAndWritesNothing : Prop :=
  ∀ s : State, s.env.slave.isOpen = true →
    exec .flush s = .next { s with
        env := { s.env with
          slave := { s.env.slave with
            answers := dropBytes (s.env.discardAmount .S) s.env.slave.answers
            discards := s.env.slave.discards.tail
            calls := s.env.slave.calls ++ [.discarded] }
          draws := s.env.draws + 1 }
        result := .none } ∧
      unread (dropBytes (s.env.discardAmount .S) s.env.slave.answers) =
        (unread s.env.slave.answers).drop (s.env.discardAmount .S) ∧
      pastUnread (dropBytes (s.env.discardAmount .S) s.env.slave.answers) = pastUnread s.env.slave.answers

/-- 47_link_ops R211 (and R212): SEND hands the staged frame to the link whole, in offset order; on Ok nothing of the block
changes; on Fault(k) OUTCOME is RawError(k) and a proper prefix at most reached the peer (93 U6, log 11); nothing is received,
sampled or closed either way. -/
def Obligations.SendTransmitsTheStagedFrame : Prop :=
  ∀ (l : LinkId) (s : State) (frame : List Byte), frame.length = s.txlen → 1 ≤ s.txlen → s.txlen ≤ 264 →
    Holds s.txb frame → (s.env.link l).isOpen = true →
    (s.env.sendAnswer l = .ok → ∃ e, exec (.send l) s = .next { s with env := e, result := .sendOk } ∧
      (e.link l).tx = (s.env.link l).tx ++ frame ∧ (e.link l).calls = (s.env.link l).calls ++ [.sent frame true] ∧
      SendLeaves l s.env e) ∧
    (∀ k r, s.env.sendAnswer l = .fault k r → ∃ e n, n < frame.length ∧
      exec (.send l) s = .next { s with
        env := e
        outcome := .fatal (.rawError k)
        outcomes := s.outcomes ++ [.fatal (.rawError k)]
        written := { s.written with outcome := true }
        result := .sendError k } ∧
      (e.link l).tx = (s.env.link l).tx ++ frame.take n ∧
      (e.link l).calls = (s.env.link l).calls ++ [.sent frame false] ∧
      SendLeaves l s.env e)

/-- SEND with nothing staged is outside its requirement and refused (47_link_ops R211; log 18). -/
def Obligations.SendWithNothingStagedIsRefused : Prop :=
  ∀ (l : LinkId) (s : State), s.txlen = 0 → exec (.send l) s = .refused (.nothingStaged 0)

/-- 47_link_ops R213: TEARDOWN closes both links, whichever failed, sends nothing, makes CSTATE Closed, and changes nothing
else. -/
def Obligations.TeardownClosesBothLinks : Prop :=
  ∀ (o : FatalOutcome) (s : State), BothOpen s →
    exec (.teardown o) s = .next { tornDown s with result := .none }

/-- FLUSH, SEND and TEARDOWN on a link the block has closed are refused under that link: the block calls no primitive on one
(20_memory R43; log 20). -/
def Obligations.LinkOperationsOnClosedLinksAreRefused : Prop :=
  ∀ s : State,
    (s.env.slave.isOpen = false → exec .flush s = .refused (.linkClosed .S)) ∧
    (∀ l : LinkId, 1 ≤ s.txlen → s.txlen ≤ 264 → (s.env.link l).isOpen = false →
      exec (.send l) s = .refused (.linkClosed l)) ∧
    (∀ o : FatalOutcome, s.env.master.isOpen = false → exec (.teardown o) s = .refused (.linkClosed .M)) ∧
    (∀ o : FatalOutcome, s.env.master.isOpen = true → s.env.slave.isOpen = false →
      exec (.teardown o) s = .refused (.linkClosed .S))

/-! ### The converters -/

/-- 45 R172: T2R.REQ of the frame `t1 t0 p1 p0 l1 l0 body` in RXB saves both ids, stages the body followed by its CRC, low byte
first, and stores the expectation; no other register and no other byte of TXB changes. That it does so for a length below RXLEN,
which no reader returned, is the model's choice (log 35), and so is direction R2T (log 36). -/
def Obligations.T2rRequestIsConverted : Prop :=
  ∀ (s : State) (t1 t0 p1 p0 l1 l0 : Byte) (body : List Byte), 1 ≤ body.length → body.length ≤ 254 →
    body.length + 6 ≤ s.rxlen → Holds s.rxb ([t1, t0, p1, p0, l1, l0] ++ body) →
    ∃ buf, exec (.t2rReq (body.length + 6)) s = .next { s with
        savedTid := t1 ++ t0
        savedPid := p1 ++ p0
        crc := crc16 body
        explen := Spec.requestExpectation body
        txb := buf
        txlen := body.length + 2
        written := { s.written with savedTid := true, savedPid := true, crc := true, explen := true }
        result := .none } ∧
      Holds buf (body ++ [loByte (crc16 body), hiByte (crc16 body)]) ∧
      ∀ a, body.length + 2 ≤ a → Buffer.get buf a = Buffer.get s.txb a

/-- 45 R176: T2R.RSP of the frame `body lo hi` in RXB stages SAVED_TID, SAVED_PID, the length of the body and the body, and
drops the two CRC bytes; nothing else changes. A frame of one byte is refused. That it completes where no rule has written SAVED_TID
or SAVED_PID, where 10_state R19 and 93 U8 say refuse, is the model's choice (log 5), and so are a length below RXLEN (log 35) and
direction R2T (log 36). -/
def Obligations.T2rResponseIsConverted : Prop :=
  (∀ s : State, exec (.t2rRsp 1) s = .refused (.shortRtuFrame 1)) ∧
  ∀ (s : State) (body : List Byte) (lo hi : Byte), 1 ≤ body.length → body.length ≤ 258 → body.length + 2 ≤ s.rxlen →
    Holds s.rxb (body ++ [lo, hi]) →
    ∃ buf, exec (.t2rRsp (body.length + 2)) s = .next { s with txb := buf, txlen := body.length + 6, result := .none } ∧
      Holds buf ([hiByte s.savedTid, loByte s.savedTid, hiByte s.savedPid, loByte s.savedPid,
        BitVec.ofNat 8 (body.length / 256), BitVec.ofNat 8 body.length] ++ body) ∧
      ∀ a, body.length + 6 ≤ a → Buffer.get buf a = Buffer.get s.txb a

/-- 46 R192: R2T.REQ of the frame `body lo hi` in RXB remembers TXID in SENT_TID, stages TXID, protocol id 0, the length of the
body and the body, and does not change TXID; nothing else changes. A frame of one byte is refused. That it does so for a length below
RXLEN, which no reader returned, is the model's choice (log 35), and so is direction T2R (log 36). -/
def Obligations.R2tRequestIsConverted : Prop :=
  (∀ s : State, exec (.r2tReq 1) s = .refused (.shortRtuFrame 1)) ∧
  ∀ (s : State) (body : List Byte) (lo hi : Byte), 1 ≤ body.length → body.length ≤ 258 → body.length + 2 ≤ s.rxlen →
    Holds s.rxb (body ++ [lo, hi]) →
    ∃ buf, exec (.r2tReq (body.length + 2)) s = .next { s with
        sentTid := s.txid
        txb := buf
        txlen := body.length + 6
        written := { s.written with sentTid := true }
        result := .none } ∧
      Holds buf ([hiByte s.txid, loByte s.txid, 0x00#8, 0x00#8,
        BitVec.ofNat 8 (body.length / 256), BitVec.ofNat 8 body.length] ++ body) ∧
      ∀ a, body.length + 6 ≤ a → Buffer.get buf a = Buffer.get s.txb a

/-- 46 R199, R200: R2T.RSP of the frame `t1 t0 p1 p0 l1 l0 body` in RXB stages the body followed by its CRC; when the id differs
from SENT_TID it logs W_TID and converts all the same; nothing else changes. That it completes where no rule has written SENT_TID,
where 10_state R19 and 93 U8 say refuse, is the model's choice (log 5), and so are a length below RXLEN (log 35) and direction T2R
(log 36). -/
def Obligations.R2tResponseIsConverted : Prop :=
  ∀ (s : State) (t1 t0 p1 p0 l1 l0 : Byte) (body : List Byte), 1 ≤ body.length → body.length ≤ 254 →
    body.length + 6 ≤ s.rxlen → Holds s.rxb ([t1, t0, p1, p0, l1, l0] ++ body) →
    ∃ buf, exec (.r2tRsp (body.length + 6)) s = .next { s with
        crc := crc16 body
        log := if t1 ++ t0 = s.sentTid then s.log else s.log ++ [.wTid]
        warn := if t1 ++ t0 = s.sentTid then s.warn else s.warn ||| 0b10#2
        txb := buf
        txlen := body.length + 2
        written := { s.written with crc := true }
        result := .none } ∧
      Holds buf (body ++ [loByte (crc16 body), hiByte (crc16 body)]) ∧
      ∀ a, body.length + 2 ≤ a → Buffer.get buf a = Buffer.get s.txb a

/-- A frame length outside the operand's range is refused: an RTU frame of fewer than 3 bytes, which leaves length minus 2 without
a value or cannot occur (45 R176, 46 R192, 93 U7; log 17), an MBAP frame of fewer than 7, either beyond CAP (45 R172, 46 R199;
log 18). -/
def Obligations.FrameLengthsOutOfRangeAreRefused : Prop :=
  ∀ (n : Nat) (s : State),
    (n < 3 → exec (.t2rRsp n) s = .refused (.shortRtuFrame n) ∧ exec (.r2tReq n) s = .refused (.shortRtuFrame n)) ∧
    (260 < n → exec (.t2rRsp n) s = .refused (.frameLength n) ∧ exec (.r2tReq n) s = .refused (.frameLength n)) ∧
    (n < 7 ∨ 260 < n → exec (.t2rReq n) s = .refused (.frameLength n) ∧ exec (.r2tRsp n) s = .refused (.frameLength n))

/-- 10_state R19: the sequencer performs no read of a register before a rule has written it. From a good state, whatever values the
registers that no rule has written yet hold (free values at reset, log 5), its step answers the same, and those registers keep
their values unless the step writes them. -/
def Obligations.SequencerReadsNoUnwrittenRegister : Prop :=
  ∀ (s : State) (v : Unspecified), Inv s → s.issue = [] →
    (∀ t, step s = .next t → step (v.into s) = .next (v.into t)) ∧
    (∀ f, step s = .fault f → step (v.into s) = .fault f) ∧
    (∀ r, step s = .refused r → step (v.into s) = .refused r)

/-! ### The sequencers -/

/-- 45 R171, 46 R191: state Idle does nothing but CSTATE <- AwaitMasterRequest, in either direction. -/
def Obligations.IdleStepBeginsTheCycle : Prop :=
  ∀ s : State, s.cstate = .idle →
    (s.dir = .t2r → exec .cycT2r s = .next { s with cstate := .awaitMasterRequest, result := .none }) ∧
    (s.dir = .r2t → exec .cycR2t s = .next { s with cstate := .awaitMasterRequest, result := .none })

/-- 45 R173: state AwaitMasterRequest of T2R is RDMBAP M, 260; on Success(n) T2R.REQ n, then ForwardToSlave; on Timeout the
state is kept; on any other outcome TEARDOWN. -/
def Obligations.T2rAwaitMasterRequestStep : Prop :=
  ∀ s u : State, s.dir = .t2r → s.cstate = .awaitMasterRequest → BothOpen s → exec (.rdmbap .M 260) s = .next u →
    (∀ n v, u.outcome = .success n → exec (.t2rReq n) u = .next v →
      exec .cycT2r s = .next { v with cstate := .forwardToSlave, result := .none }) ∧
    (u.outcome = .timeout → exec .cycT2r s = .next { u with result := .none }) ∧
    (∀ o, u.outcome = .fatal o → exec .cycT2r s = .next { tornDown u with result := .none })

/-- 45 R174: state ForwardToSlave of T2R is FLUSH, then SEND S; on Ok AwaitSlaveResponse; on RawError(k) TEARDOWN. -/
def Obligations.T2rForwardToSlaveStep : Prop :=
  ∀ s u v : State, s.dir = .t2r → s.cstate = .forwardToSlave → BothOpen s → exec .flush s = .next u →
    exec (.send .S) u = .next v →
    (v.result = .sendOk → exec .cycT2r s = .next { v with cstate := .awaitSlaveResponse, result := .none }) ∧
    (∀ k, v.result = .sendError k → exec .cycT2r s = .next { tornDown v with result := .none })

/-- 45 R175: state AwaitSlaveResponse of T2R is RDRTU S, 260, EXPLEN; on Success(m) T2R.RSP m, then ForwardToMaster; on Timeout
the state and EXPLEN are kept and nothing is sent; on any other outcome TEARDOWN. That the read goes on where no rule has written
EXPLEN, or T2R.RSP where none has written SAVED_TID or SAVED_PID, where 10_state R19 and 93 U8 say refuse, is the model's choice
(log 5). -/
def Obligations.T2rAwaitSlaveResponseStep : Prop :=
  ∀ s u : State, s.dir = .t2r → s.cstate = .awaitSlaveResponse → BothOpen s →
    exec (.rdrtu .S 260 s.explen) s = .next u →
    (∀ m v, u.outcome = .success m → exec (.t2rRsp m) u = .next v →
      exec .cycT2r s = .next { v with cstate := .forwardToMaster, result := .none }) ∧
    (u.outcome = .timeout → exec .cycT2r s = .next { u with result := .none } ∧ u.explen = s.explen ∧
      u.env.slave.calls = s.env.slave.calls ∧ u.env.master.calls = s.env.master.calls) ∧
    (∀ o, u.outcome = .fatal o → exec .cycT2r s = .next { tornDown u with result := .none })

/-- 45 R177, 46 R198: state ForwardToMaster of either direction is SEND M; on Ok Idle; on RawError(k) TEARDOWN. -/
def Obligations.ForwardToMasterStep : Prop :=
  ∀ (s u : State) (cyc : Instr), (s.dir = .t2r ∧ cyc = .cycT2r) ∨ (s.dir = .r2t ∧ cyc = .cycR2t) →
    s.cstate = .forwardToMaster → BothOpen s → exec (.send .M) s = .next u →
    (u.result = .sendOk → exec cyc s = .next { u with cstate := .idle, result := .none }) ∧
    (∀ k, u.result = .sendError k → exec cyc s = .next { tornDown u with result := .none })

/-- 46 R193: state AwaitMasterRequest of R2T is RDRTU M, 260, Unknown; on Success(n) R2T.REQ n, then ForwardToSlave; on Timeout
the state is kept; on any other outcome, never CrcMismatch or TooMuchData, TEARDOWN. -/
def Obligations.R2tAwaitMasterRequestStep : Prop :=
  ∀ s u : State, s.dir = .r2t → s.cstate = .awaitMasterRequest → BothOpen s → exec (.rdrtu .M 260 .unknown) s = .next u →
    (∀ n v, u.outcome = .success n → exec (.r2tReq n) u = .next v →
      exec .cycR2t s = .next { v with cstate := .forwardToSlave, result := .none }) ∧
    (u.outcome = .timeout → exec .cycR2t s = .next { u with result := .none }) ∧
    (∀ o, u.outcome = .fatal o → o ≠ .crcMismatch ∧ o ≠ .tooMuchData ∧
      exec .cycR2t s = .next { tornDown u with result := .none })

/-- 46 R194, R196: state ForwardToSlave of R2T is SEND S with no FLUSH; on Ok TXID is incremented modulo 2^16, then
AwaitSlaveResponse; on RawError(k) TEARDOWN. -/
def Obligations.R2tForwardToSlaveStep : Prop :=
  ∀ s u : State, s.dir = .r2t → s.cstate = .forwardToSlave → BothOpen s → exec (.send .S) s = .next u →
    (u.result = .sendOk → exec .cycR2t s = .next { u with
      txid := BitVec.ofNat 16 (s.txid.toNat + 1), cstate := .awaitSlaveResponse, result := .none }) ∧
    (∀ k, u.result = .sendError k → exec .cycR2t s = .next { tornDown u with result := .none })

/-- 46 R197: state AwaitSlaveResponse of R2T is RDMBAP S, 260; on Success(m) R2T.RSP m, then ForwardToMaster; on Timeout the same
read again; on any other outcome TEARDOWN. -/
def Obligations.R2tAwaitSlaveResponseStep : Prop :=
  ∀ s u : State, s.dir = .r2t → s.cstate = .awaitSlaveResponse → BothOpen s → exec (.rdmbap .S 260) s = .next u →
    (∀ m v, u.outcome = .success m → exec (.r2tRsp m) u = .next v →
      exec .cycR2t s = .next { v with cstate := .forwardToMaster, result := .none }) ∧
    (u.outcome = .timeout → exec .cycR2t s = .next { u with result := .none }) ∧
    (∀ o, u.outcome = .fatal o → exec .cycR2t s = .next { tornDown u with result := .none })

/-- Taking a fatal outcome and what it keeps (60_exceptions R232): a sequencer step into Closed closes both links, OUTCOME holds a
fatal kind, and WARN, LOG, TXID and the other registers the failed reader or SEND does not write (SAVED_TID, SAVED_PID,
SENT_TID, EXPLEN, TXLEN, TXB) keep their values. -/
def Obligations.FatalOutcomeClosesAndKeepsRegisters : Prop :=
  ∀ s t : State, s.issue = [] → step s = .next t → t.cstate = .closed →
    t.env.master.isOpen = false ∧ t.env.slave.isOpen = false ∧ (∃ o, t.outcome = .fatal o) ∧
    t.warn = s.warn ∧ t.log = s.log ∧
    t.txid = s.txid ∧ t.savedTid = s.savedTid ∧ t.savedPid = s.savedPid ∧ t.sentTid = s.sentTid ∧
    t.explen = s.explen ∧ t.txlen = s.txlen ∧ t.txb = s.txb

/-- A CYC operation of the direction CFG.DIR does not select is refused (45 R170, 46 R190: requires CFG.DIR; log 19). -/
def Obligations.OtherDirectionsCycleIsRefused : Prop :=
  (∀ s : State, s.dir = .r2t → exec .cycT2r s = .refused .wrongDirection) ∧
  (∀ s : State, s.dir = .t2r → exec .cycR2t s = .refused .wrongDirection)

/-- A whole T2R exchange, the source's end-to-end property (45 R170, R178, R180), for frames that come in one chunk and a known
expectation met exactly; several chunks, the 5-byte shortcut and Unknown are not in it: from Idle, a
request frame with its length field delivered in one chunk by the master, and the exact response the estimate expects with a
good CRC delivered in one chunk by the slave, nothing stale, sends accepted and no cancellation, five steps return to Idle;
the slave was sent the unit id and PDU with their CRC, the master the response with the request's transaction and protocol
id. -/
def Obligations.T2rExchangeForwardsRequestAndResponse : Prop :=
  ∀ (s : State) (t1 t0 p1 p0 l1 l0 b0 r0 : Byte) (body resp : List Byte) (e : Word18) (mrest srest : List RecvAnswer)
    (cs : List Bool) (ms ss : List SendAnswer),
    Inv s → s.dir = .t2r → s.cstate = .idle → s.issue = [] → s.env.cancel = false →
    s.env.cancels = false :: false :: cs →
    l1.toNat * 256 + l0.toNat = (b0 :: body).length → (b0 :: body).length ≤ 254 →
    s.env.master.answers = .data t1 ([t0, p1, p0, l1, l0] ++ b0 :: body) :: mrest →
    Spec.requestExpectation (b0 :: body) = .known e →
    (r0 :: resp).length = e.toNat + 1 → e.toNat + 3 ≤ 260 →
    s.env.slave.answers =
      .data r0 (resp ++ [loByte (crc16 (r0 :: resp)), hiByte (crc16 (r0 :: resp))]) :: srest →
    s.env.slave.discards.head? = some 0 →
    s.env.slave.sends = .ok :: ss → s.env.master.sends = .ok :: ms →
    ∃ t, Steps 5 s t ∧ t.cstate = .idle ∧
      t.env.slave.tx = s.env.slave.tx ++ (b0 :: body) ++ [loByte (crc16 (b0 :: body)), hiByte (crc16 (b0 :: body))] ∧
      t.env.master.tx = s.env.master.tx ++ [t1, t0, p1, p0, BitVec.ofNat 8 ((r0 :: resp).length / 256),
        BitVec.ofNat 8 (r0 :: resp).length] ++ (r0 :: resp)

/-- A whole R2T exchange, the mirror (46 R190, R201, R203), for frames that come in one chunk; several chunks and a request with a
bad CRC are not in it: from Idle, a request with a good CRC delivered in one chunk by the
master with nothing pending after it, and an MBAP response with its length field delivered in one chunk by the slave, sends
accepted and no cancellation, five steps return to Idle; the slave was sent the request under the id TXID, TXID has advanced
modulo 2^16, the master was sent the response's unit id and PDU with their CRC, and W_TID is logged exactly when the echoed id
differs. -/
def Obligations.R2tExchangeForwardsRequestAndResponse : Prop :=
  ∀ (s : State) (t1 t0 p1 p0 l1 l0 b0 r0 : Byte) (req body : List Byte) (mrest srest : List RecvAnswer)
    (ps cs : List Bool) (ms ss : List SendAnswer),
    Inv s → s.dir = .r2t → s.cstate = .idle → s.issue = [] → s.env.cancel = false →
    s.env.cancels = false :: false :: cs →
    (r0 :: req).length ≤ 258 →
    s.env.master.answers = .data r0 (req ++ [loByte (crc16 (r0 :: req)), hiByte (crc16 (r0 :: req))]) :: mrest →
    s.env.master.pendings = false :: ps →
    l1.toNat * 256 + l0.toNat = (b0 :: body).length → (b0 :: body).length ≤ 254 →
    s.env.slave.answers = .data t1 ([t0, p1, p0, l1, l0] ++ b0 :: body) :: srest →
    s.env.slave.sends = .ok :: ss → s.env.master.sends = .ok :: ms →
    ∃ t, Steps 5 s t ∧ t.cstate = .idle ∧ t.txid = s.txid + 1#16 ∧
      t.env.slave.tx = s.env.slave.tx ++ [hiByte s.txid, loByte s.txid, 0x00#8, 0x00#8,
        BitVec.ofNat 8 ((r0 :: req).length / 256), BitVec.ofNat 8 (r0 :: req).length] ++ (r0 :: req) ∧
      t.env.master.tx = s.env.master.tx ++ (b0 :: body) ++ [loByte (crc16 (b0 :: body)), hiByte (crc16 (b0 :: body))] ∧
      t.log = (if t1 ++ t0 = s.txid then s.log else s.log ++ [.wTid])
end

