-- ==== Sys2Proof/Laws/Buffer.lean ====
section
/-! SUPPORT. The laws of the buffers: read after write, what a write leaves alone, the canonical form every write keeps, and what a
slice holds. -/

namespace Sys2Proof.Machine

@[simp] theorem Buffer.get_nil (off : Nat) : Buffer.get [] off = none := rfl

theorem Buffer.get_cons (o off : Nat) (c : Byte) (rest : Buffer) :
    Buffer.get ((o, c) :: rest) off = if off = o then some c else Buffer.get rest off := by
  unfold Buffer.get
  by_cases h : off = o
  · simp [h]
  · simp [List.lookup_cons, h, beq_eq_false_iff_ne.mpr h]

@[simp] theorem Buffer.get_put_same (off : Nat) (b : Byte) (buf : Buffer) :
    Buffer.get (Buffer.put off b buf) off = some b := by
  induction buf with
  | nil => simp [Buffer.put, Buffer.get_cons]
  | cons x rest ih =>
    obtain ⟨o, c⟩ := x
    unfold Buffer.put
    split
    · simp [Buffer.get_cons]
    · split
      · simp [Buffer.get_cons]
      · simp [Buffer.get_cons, *]

@[simp] theorem Buffer.get_put_other {off i : Nat} (b : Byte) (buf : Buffer) (h : i ≠ off) :
    Buffer.get (Buffer.put off b buf) i = Buffer.get buf i := by
  induction buf with
  | nil => simp [Buffer.put, Buffer.get_cons, h]
  | cons x rest ih =>
    obtain ⟨o, c⟩ := x
    unfold Buffer.put
    split
    · simp [Buffer.get_cons, h]
    · split
      · next h2 => subst h2; simp [Buffer.get_cons, h]
      · simp [Buffer.get_cons, ih]

theorem Buffer.mem_put {off : Nat} {b : Byte} {buf : Buffer} {x : Host.Cell}
    (h : x ∈ Buffer.put off b buf) : x = (off, b) ∨ x ∈ buf := by
  induction buf with
  | nil => simpa [Buffer.put] using h
  | cons y rest ih =>
    obtain ⟨o, c⟩ := y
    unfold Buffer.put at h
    split at h
    · simpa using h
    · split at h
      · rcases List.mem_cons.mp h with h | h
        · exact .inl h
        · exact .inr (List.mem_cons_of_mem _ h)
      · rcases List.mem_cons.mp h with h | h
        · exact .inr (h ▸ List.mem_cons_self)
        · exact (ih h).imp_right (List.mem_cons_of_mem _)

/-- A write inside the capacity keeps the canonical form. -/
theorem Buffer.put_wf {capacity off : Nat} (b : Byte) {buf : Buffer} (hb : Buffer.wf capacity buf) (ho : off < capacity) :
    Buffer.wf capacity (Buffer.put off b buf) := by
  refine ⟨?_, fun x hx => ?_⟩
  · obtain ⟨hp, -⟩ := hb
    induction buf with
    | nil => simp [Buffer.put]
    | cons y rest ih =>
      obtain ⟨o, c⟩ := y
      obtain ⟨h1, h2⟩ := List.pairwise_cons.mp hp
      unfold Buffer.put
      split
      · next h =>
        refine List.pairwise_cons.mpr ⟨fun x hx => ?_, hp⟩
        rcases List.mem_cons.mp hx with rfl | hx
        · exact h
        · exact Nat.lt_trans h (h1 x hx)
      · split
        · next h =>
          subst h
          exact List.pairwise_cons.mpr ⟨fun x hx => h1 x hx, h2⟩
        · refine List.pairwise_cons.mpr ⟨fun x hx => ?_, ih h2⟩
          rcases Buffer.mem_put hx with rfl | hx
          · simp only; omega
          · exact h1 x hx
  · rcases Buffer.mem_put hx with rfl | hx
    · exact ho
    · exact hb.2 x hx

/-- A sequence written inside the capacity keeps the canonical form. -/
theorem Buffer.putAll_wf {capacity : Nat} (bs : List Byte) {off : Nat} {buf : Buffer} (hb : Buffer.wf capacity buf)
    (ho : off + bs.length ≤ capacity) : Buffer.wf capacity (Buffer.putAll off bs buf) := by
  induction bs generalizing off buf with
  | nil => exact hb
  | cons b bs ih =>
    simp only [List.length_cons] at ho
    exact ih (Buffer.put_wf b hb (by omega)) (by omega)

/-- Outside the bytes written, a write changes nothing. -/
theorem Buffer.get_putAll_outside (bs : List Byte) {off i : Nat} (buf : Buffer) (h : i < off ∨ off + bs.length ≤ i) :
    Buffer.get (Buffer.putAll off bs buf) i = Buffer.get buf i := by
  induction bs generalizing off buf with
  | nil => rfl
  | cons b bs ih =>
    simp only [List.length_cons] at h
    unfold Buffer.putAll
    rw [ih _ (by omega), Buffer.get_put_other b buf (by omega)]

/-- Inside the bytes written, a read gives the byte written. -/
theorem Buffer.get_putAll_inside (bs : List Byte) {off i : Nat} (buf : Buffer) (h1 : off ≤ i) (h2 : i < off + bs.length) :
    Buffer.get (Buffer.putAll off bs buf) i = bs[i - off]? := by
  induction bs generalizing off buf with
  | nil => simp at h2; omega
  | cons b bs ih =>
    unfold Buffer.putAll
    by_cases h : i = off
    · subst h
      rw [Buffer.get_putAll_outside bs _ (by omega)]
      simp
    · simp only [List.length_cons] at h2
      rw [ih _ (by omega) (by omega)]
      obtain ⟨k, rfl⟩ : ∃ k, i = off + 1 + k := ⟨i - (off + 1), by omega⟩
      have h3 : off + 1 + k - off = k + 1 := by omega
      simp [h3]

/-- A slice has the length asked for. -/
theorem Buffer.slice_length {buf : Buffer} {n off : Nat} {bs : List Byte} (h : Buffer.slice buf off n = some bs) :
    bs.length = n := by
  induction n generalizing off bs with
  | zero => simp [Buffer.slice] at h; simp [← h]
  | succ n ih =>
    unfold Buffer.slice at h
    split at h
    · next b rest _ h2 => cases h; simp [ih h2]
    · cases h

/-- A slice holds the bytes of its offsets. -/
theorem Buffer.slice_get {buf : Buffer} {n off : Nat} {bs : List Byte} (h : Buffer.slice buf off n = some bs) {i : Nat}
    (hi : i < n) : bs[i]? = Buffer.get buf (off + i) := by
  induction n generalizing off bs i with
  | zero => omega
  | succ n ih =>
    unfold Buffer.slice at h
    split at h
    · next b rest h1 h2 =>
      cases h
      cases i with
      | zero => simp [h1]
      | succ i =>
        have := ih h2 (i := i) (by omega)
        rw [List.getElem?_cons_succ, this]
        congr 1
        omega
    · cases h

/-- A slice of bytes that all hold a value is read. -/
theorem Buffer.slice_isSome {buf : Buffer} {n off : Nat} (h : ∀ i < n, (Buffer.get buf (off + i)).isSome) :
    ∃ bs, Buffer.slice buf off n = some bs := by
  induction n generalizing off with
  | zero => exact ⟨[], rfl⟩
  | succ n ih =>
    obtain ⟨bs, hbs⟩ := ih (off := off + 1) (fun i hi => by
      have := h (i + 1) (by omega)
      rwa [show off + 1 + i = off + (i + 1) by omega])
    obtain ⟨b, hb⟩ := Option.isSome_iff_exists.mp (h 0 (by omega))
    rw [Nat.add_zero] at hb
    exact ⟨b :: bs, by simp [Buffer.slice, hb, hbs]⟩

/-- A slice is determined by the bytes it reads. -/
theorem Buffer.slice_eq {buf : Buffer} {off : Nat} (bs : List Byte) (h : ∀ i < bs.length, Buffer.get buf (off + i) = bs[i]?) :
    Buffer.slice buf off bs.length = some bs := by
  induction bs generalizing off with
  | nil => rfl
  | cons b bs ih =>
    have h0 := h 0 (by simp)
    have h1 : Buffer.slice buf (off + 1) bs.length = some bs := ih fun i hi => by
      have := h (i + 1) (by simpa using hi)
      rw [show off + 1 + i = off + (i + 1) by omega, this]
      simp
    simp only [Nat.add_zero, List.getElem?_cons_zero] at h0
    simp [Buffer.slice, h0, h1]

/-- Reading back what was just written. -/
theorem Buffer.slice_putAll (off : Nat) (bs : List Byte) (buf : Buffer) :
    Buffer.slice (Buffer.putAll off bs buf) off bs.length = some bs :=
  Buffer.slice_eq bs fun i hi => by
    rw [Buffer.get_putAll_inside bs buf (by omega) (by omega)]
    simp

/-- A chunk appended behind a held slice extends it. -/
theorem Buffer.slice_append {buf : Buffer} {n : Nat} {bs : List Byte} (h : Buffer.slice buf 0 n = some bs) (c : List Byte) :
    Buffer.slice (Buffer.putAll n c buf) 0 (n + c.length) = some (bs ++ c) := by
  have hl := Buffer.slice_length h
  rw [show n + c.length = (bs ++ c).length by simp [hl]]
  refine Buffer.slice_eq _ fun i hi => ?_
  rw [Nat.zero_add]
  by_cases hin : i < n
  · rw [Buffer.get_putAll_outside c buf (.inl hin), List.getElem?_append_left (by omega),
      Buffer.slice_get h hin, Nat.zero_add]
  · rw [List.length_append] at hi
    rw [Buffer.get_putAll_inside c buf (by omega) (by omega), List.getElem?_append_right (by omega), hl]

end Sys2Proof.Machine
end

