-- ==== Sys2Proof/Laws/Bytes.lean ====
section
/-! SUPPORT. Bytes and byte pairs: the high and the low byte of a 16-bit value, and a pair read big-endian. -/

namespace Sys2Proof.Machine

/-- The value of a byte pair, high byte first. -/
theorem append_toNat (hi lo : Byte) : BitVec.toNat (w := 16) (hi ++ lo) = hi.toNat * 256 + lo.toNat := by
  have h : (hi ++ lo).toNat = _ := BitVec.toNat_append hi lo
  rw [← Nat.shiftLeft_add_eq_or_of_lt lo.isLt, Nat.shiftLeft_eq] at h
  exact h

/-- The high byte as a number. -/
theorem hiByte_toNat (v : Word16) : (hiByte v).toNat = v.toNat / 256 := by
  have := v.isLt
  simp [hiByte, BitVec.extractLsb'_toNat, Nat.shiftRight_eq_div_pow]
  omega

/-- The low byte as a number. -/
theorem loByte_toNat (v : Word16) : (loByte v).toNat = v.toNat % 256 := by
  simp [loByte, BitVec.extractLsb'_toNat]

@[simp] theorem hiByte_append (hi lo : Byte) : hiByte (hi ++ lo) = hi := by
  apply BitVec.eq_of_toNat_eq
  rw [hiByte_toNat, append_toNat]
  have := lo.isLt
  omega

@[simp] theorem loByte_append (hi lo : Byte) : loByte (hi ++ lo) = lo := by
  apply BitVec.eq_of_toNat_eq
  rw [loByte_toNat, append_toNat]
  have := lo.isLt
  omega

@[simp] theorem hiByte_append_loByte (v : Word16) : hiByte v ++ loByte v = v := by
  apply BitVec.eq_of_toNat_eq
  rw [append_toNat, hiByte_toNat, loByte_toNat]
  omega

/-- Two bytes read most significant first are the pair. -/
theorem be16_pair (hi lo : Byte) : BitVec.ofNat 16 (beValue [hi, lo]) = hi ++ lo := by
  apply BitVec.eq_of_toNat_eq
  have := hi.isLt
  have := lo.isLt
  have h : (BitVec.ofNat 16 (beValue [hi, lo])).toNat = hi.toNat * 256 + lo.toNat := by
    simp [beValue]; omega
  exact h.trans (append_toNat hi lo).symm

end Sys2Proof.Machine
end

