-- ==== Sys2Proof/Laws/State.lean ====
section
/-! SUPPORT. One lemma per field per update of State, true by rfl, so that no later proof unfolds a record update. -/

namespace Sys2Proof.Machine

/-! ### `State.logEvent` -/

@[simp] theorem State.logEvent_dir (s : State) (e : LogEvent) : (s.logEvent e).dir = s.dir := rfl
@[simp] theorem State.logEvent_cstate (s : State) (e : LogEvent) : (s.logEvent e).cstate = s.cstate := rfl
@[simp] theorem State.logEvent_outcome (s : State) (e : LogEvent) : (s.logEvent e).outcome = s.outcome := rfl
@[simp] theorem State.logEvent_warn (s : State) (e : LogEvent) : (s.logEvent e).warn = s.warn ||| LogEvent.warnBit e := rfl
@[simp] theorem State.logEvent_log (s : State) (e : LogEvent) : (s.logEvent e).log = s.log ++ [e] := rfl
@[simp] theorem State.logEvent_rxlen (s : State) (e : LogEvent) : (s.logEvent e).rxlen = s.rxlen := rfl
@[simp] theorem State.logEvent_txlen (s : State) (e : LogEvent) : (s.logEvent e).txlen = s.txlen := rfl
@[simp] theorem State.logEvent_crc (s : State) (e : LogEvent) : (s.logEvent e).crc = s.crc := rfl
@[simp] theorem State.logEvent_txid (s : State) (e : LogEvent) : (s.logEvent e).txid = s.txid := rfl
@[simp] theorem State.logEvent_savedTid (s : State) (e : LogEvent) : (s.logEvent e).savedTid = s.savedTid := rfl
@[simp] theorem State.logEvent_savedPid (s : State) (e : LogEvent) : (s.logEvent e).savedPid = s.savedPid := rfl
@[simp] theorem State.logEvent_sentTid (s : State) (e : LogEvent) : (s.logEvent e).sentTid = s.sentTid := rfl
@[simp] theorem State.logEvent_explen (s : State) (e : LogEvent) : (s.logEvent e).explen = s.explen := rfl
@[simp] theorem State.logEvent_written (s : State) (e : LogEvent) : (s.logEvent e).written = s.written := rfl
@[simp] theorem State.logEvent_rxb (s : State) (e : LogEvent) : (s.logEvent e).rxb = s.rxb := rfl
@[simp] theorem State.logEvent_txb (s : State) (e : LogEvent) : (s.logEvent e).txb = s.txb := rfl
@[simp] theorem State.logEvent_env (s : State) (e : LogEvent) : (s.logEvent e).env = s.env := rfl
@[simp] theorem State.logEvent_outcomes (s : State) (e : LogEvent) : (s.logEvent e).outcomes = s.outcomes := rfl
@[simp] theorem State.logEvent_result (s : State) (e : LogEvent) : (s.logEvent e).result = s.result := rfl
@[simp] theorem State.logEvent_issue (s : State) (e : LogEvent) : (s.logEvent e).issue = s.issue := rfl

/-! ### `State.setOutcome` -/

@[simp] theorem State.setOutcome_dir (s : State) (o : ReadOutcome) : (s.setOutcome o).dir = s.dir := rfl
@[simp] theorem State.setOutcome_cstate (s : State) (o : ReadOutcome) : (s.setOutcome o).cstate = s.cstate := rfl
@[simp] theorem State.setOutcome_outcome (s : State) (o : ReadOutcome) : (s.setOutcome o).outcome = o := rfl
@[simp] theorem State.setOutcome_warn (s : State) (o : ReadOutcome) : (s.setOutcome o).warn = s.warn := rfl
@[simp] theorem State.setOutcome_log (s : State) (o : ReadOutcome) : (s.setOutcome o).log = s.log := rfl
@[simp] theorem State.setOutcome_rxlen (s : State) (o : ReadOutcome) : (s.setOutcome o).rxlen = s.rxlen := rfl
@[simp] theorem State.setOutcome_txlen (s : State) (o : ReadOutcome) : (s.setOutcome o).txlen = s.txlen := rfl
@[simp] theorem State.setOutcome_crc (s : State) (o : ReadOutcome) : (s.setOutcome o).crc = s.crc := rfl
@[simp] theorem State.setOutcome_txid (s : State) (o : ReadOutcome) : (s.setOutcome o).txid = s.txid := rfl
@[simp] theorem State.setOutcome_savedTid (s : State) (o : ReadOutcome) : (s.setOutcome o).savedTid = s.savedTid := rfl
@[simp] theorem State.setOutcome_savedPid (s : State) (o : ReadOutcome) : (s.setOutcome o).savedPid = s.savedPid := rfl
@[simp] theorem State.setOutcome_sentTid (s : State) (o : ReadOutcome) : (s.setOutcome o).sentTid = s.sentTid := rfl
@[simp] theorem State.setOutcome_explen (s : State) (o : ReadOutcome) : (s.setOutcome o).explen = s.explen := rfl
@[simp] theorem State.setOutcome_written (s : State) (o : ReadOutcome) : (s.setOutcome o).written = { s.written with outcome := true } := rfl
@[simp] theorem State.setOutcome_rxb (s : State) (o : ReadOutcome) : (s.setOutcome o).rxb = s.rxb := rfl
@[simp] theorem State.setOutcome_txb (s : State) (o : ReadOutcome) : (s.setOutcome o).txb = s.txb := rfl
@[simp] theorem State.setOutcome_env (s : State) (o : ReadOutcome) : (s.setOutcome o).env = s.env := rfl
@[simp] theorem State.setOutcome_outcomes (s : State) (o : ReadOutcome) : (s.setOutcome o).outcomes = s.outcomes ++ [o] := rfl
@[simp] theorem State.setOutcome_result (s : State) (o : ReadOutcome) : (s.setOutcome o).result = s.result := rfl
@[simp] theorem State.setOutcome_issue (s : State) (o : ReadOutcome) : (s.setOutcome o).issue = s.issue := rfl

/-! ### `State.setCState` -/

@[simp] theorem State.setCState_dir (s : State) (c : CState) : (s.setCState c).dir = s.dir := rfl
@[simp] theorem State.setCState_cstate (s : State) (c : CState) : (s.setCState c).cstate = c := rfl
@[simp] theorem State.setCState_outcome (s : State) (c : CState) : (s.setCState c).outcome = s.outcome := rfl
@[simp] theorem State.setCState_warn (s : State) (c : CState) : (s.setCState c).warn = s.warn := rfl
@[simp] theorem State.setCState_log (s : State) (c : CState) : (s.setCState c).log = s.log := rfl
@[simp] theorem State.setCState_rxlen (s : State) (c : CState) : (s.setCState c).rxlen = s.rxlen := rfl
@[simp] theorem State.setCState_txlen (s : State) (c : CState) : (s.setCState c).txlen = s.txlen := rfl
@[simp] theorem State.setCState_crc (s : State) (c : CState) : (s.setCState c).crc = s.crc := rfl
@[simp] theorem State.setCState_txid (s : State) (c : CState) : (s.setCState c).txid = s.txid := rfl
@[simp] theorem State.setCState_savedTid (s : State) (c : CState) : (s.setCState c).savedTid = s.savedTid := rfl
@[simp] theorem State.setCState_savedPid (s : State) (c : CState) : (s.setCState c).savedPid = s.savedPid := rfl
@[simp] theorem State.setCState_sentTid (s : State) (c : CState) : (s.setCState c).sentTid = s.sentTid := rfl
@[simp] theorem State.setCState_explen (s : State) (c : CState) : (s.setCState c).explen = s.explen := rfl
@[simp] theorem State.setCState_written (s : State) (c : CState) : (s.setCState c).written = s.written := rfl
@[simp] theorem State.setCState_rxb (s : State) (c : CState) : (s.setCState c).rxb = s.rxb := rfl
@[simp] theorem State.setCState_txb (s : State) (c : CState) : (s.setCState c).txb = s.txb := rfl
@[simp] theorem State.setCState_env (s : State) (c : CState) : (s.setCState c).env = s.env := rfl
@[simp] theorem State.setCState_outcomes (s : State) (c : CState) : (s.setCState c).outcomes = s.outcomes := rfl
@[simp] theorem State.setCState_result (s : State) (c : CState) : (s.setCState c).result = s.result := rfl
@[simp] theorem State.setCState_issue (s : State) (c : CState) : (s.setCState c).issue = s.issue := rfl

/-! ### `State.setCrc` -/

@[simp] theorem State.setCrc_dir (s : State) (v : Word16) : (s.setCrc v).dir = s.dir := rfl
@[simp] theorem State.setCrc_cstate (s : State) (v : Word16) : (s.setCrc v).cstate = s.cstate := rfl
@[simp] theorem State.setCrc_outcome (s : State) (v : Word16) : (s.setCrc v).outcome = s.outcome := rfl
@[simp] theorem State.setCrc_warn (s : State) (v : Word16) : (s.setCrc v).warn = s.warn := rfl
@[simp] theorem State.setCrc_log (s : State) (v : Word16) : (s.setCrc v).log = s.log := rfl
@[simp] theorem State.setCrc_rxlen (s : State) (v : Word16) : (s.setCrc v).rxlen = s.rxlen := rfl
@[simp] theorem State.setCrc_txlen (s : State) (v : Word16) : (s.setCrc v).txlen = s.txlen := rfl
@[simp] theorem State.setCrc_crc (s : State) (v : Word16) : (s.setCrc v).crc = v := rfl
@[simp] theorem State.setCrc_txid (s : State) (v : Word16) : (s.setCrc v).txid = s.txid := rfl
@[simp] theorem State.setCrc_savedTid (s : State) (v : Word16) : (s.setCrc v).savedTid = s.savedTid := rfl
@[simp] theorem State.setCrc_savedPid (s : State) (v : Word16) : (s.setCrc v).savedPid = s.savedPid := rfl
@[simp] theorem State.setCrc_sentTid (s : State) (v : Word16) : (s.setCrc v).sentTid = s.sentTid := rfl
@[simp] theorem State.setCrc_explen (s : State) (v : Word16) : (s.setCrc v).explen = s.explen := rfl
@[simp] theorem State.setCrc_written (s : State) (v : Word16) : (s.setCrc v).written = { s.written with crc := true } := rfl
@[simp] theorem State.setCrc_rxb (s : State) (v : Word16) : (s.setCrc v).rxb = s.rxb := rfl
@[simp] theorem State.setCrc_txb (s : State) (v : Word16) : (s.setCrc v).txb = s.txb := rfl
@[simp] theorem State.setCrc_env (s : State) (v : Word16) : (s.setCrc v).env = s.env := rfl
@[simp] theorem State.setCrc_outcomes (s : State) (v : Word16) : (s.setCrc v).outcomes = s.outcomes := rfl
@[simp] theorem State.setCrc_result (s : State) (v : Word16) : (s.setCrc v).result = s.result := rfl
@[simp] theorem State.setCrc_issue (s : State) (v : Word16) : (s.setCrc v).issue = s.issue := rfl

/-! ### `State.saveIds` -/

@[simp] theorem State.saveIds_dir (s : State) (tid pid : Word16) : (s.saveIds tid pid).dir = s.dir := rfl
@[simp] theorem State.saveIds_cstate (s : State) (tid pid : Word16) : (s.saveIds tid pid).cstate = s.cstate := rfl
@[simp] theorem State.saveIds_outcome (s : State) (tid pid : Word16) : (s.saveIds tid pid).outcome = s.outcome := rfl
@[simp] theorem State.saveIds_warn (s : State) (tid pid : Word16) : (s.saveIds tid pid).warn = s.warn := rfl
@[simp] theorem State.saveIds_log (s : State) (tid pid : Word16) : (s.saveIds tid pid).log = s.log := rfl
@[simp] theorem State.saveIds_rxlen (s : State) (tid pid : Word16) : (s.saveIds tid pid).rxlen = s.rxlen := rfl
@[simp] theorem State.saveIds_txlen (s : State) (tid pid : Word16) : (s.saveIds tid pid).txlen = s.txlen := rfl
@[simp] theorem State.saveIds_crc (s : State) (tid pid : Word16) : (s.saveIds tid pid).crc = s.crc := rfl
@[simp] theorem State.saveIds_txid (s : State) (tid pid : Word16) : (s.saveIds tid pid).txid = s.txid := rfl
@[simp] theorem State.saveIds_savedTid (s : State) (tid pid : Word16) : (s.saveIds tid pid).savedTid = tid := rfl
@[simp] theorem State.saveIds_savedPid (s : State) (tid pid : Word16) : (s.saveIds tid pid).savedPid = pid := rfl
@[simp] theorem State.saveIds_sentTid (s : State) (tid pid : Word16) : (s.saveIds tid pid).sentTid = s.sentTid := rfl
@[simp] theorem State.saveIds_explen (s : State) (tid pid : Word16) : (s.saveIds tid pid).explen = s.explen := rfl
@[simp] theorem State.saveIds_written (s : State) (tid pid : Word16) : (s.saveIds tid pid).written = { s.written with savedTid := true, savedPid := true } := rfl
@[simp] theorem State.saveIds_rxb (s : State) (tid pid : Word16) : (s.saveIds tid pid).rxb = s.rxb := rfl
@[simp] theorem State.saveIds_txb (s : State) (tid pid : Word16) : (s.saveIds tid pid).txb = s.txb := rfl
@[simp] theorem State.saveIds_env (s : State) (tid pid : Word16) : (s.saveIds tid pid).env = s.env := rfl
@[simp] theorem State.saveIds_outcomes (s : State) (tid pid : Word16) : (s.saveIds tid pid).outcomes = s.outcomes := rfl
@[simp] theorem State.saveIds_result (s : State) (tid pid : Word16) : (s.saveIds tid pid).result = s.result := rfl
@[simp] theorem State.saveIds_issue (s : State) (tid pid : Word16) : (s.saveIds tid pid).issue = s.issue := rfl

/-! ### `State.setSentTid` -/

@[simp] theorem State.setSentTid_dir (s : State) (v : Word16) : (s.setSentTid v).dir = s.dir := rfl
@[simp] theorem State.setSentTid_cstate (s : State) (v : Word16) : (s.setSentTid v).cstate = s.cstate := rfl
@[simp] theorem State.setSentTid_outcome (s : State) (v : Word16) : (s.setSentTid v).outcome = s.outcome := rfl
@[simp] theorem State.setSentTid_warn (s : State) (v : Word16) : (s.setSentTid v).warn = s.warn := rfl
@[simp] theorem State.setSentTid_log (s : State) (v : Word16) : (s.setSentTid v).log = s.log := rfl
@[simp] theorem State.setSentTid_rxlen (s : State) (v : Word16) : (s.setSentTid v).rxlen = s.rxlen := rfl
@[simp] theorem State.setSentTid_txlen (s : State) (v : Word16) : (s.setSentTid v).txlen = s.txlen := rfl
@[simp] theorem State.setSentTid_crc (s : State) (v : Word16) : (s.setSentTid v).crc = s.crc := rfl
@[simp] theorem State.setSentTid_txid (s : State) (v : Word16) : (s.setSentTid v).txid = s.txid := rfl
@[simp] theorem State.setSentTid_savedTid (s : State) (v : Word16) : (s.setSentTid v).savedTid = s.savedTid := rfl
@[simp] theorem State.setSentTid_savedPid (s : State) (v : Word16) : (s.setSentTid v).savedPid = s.savedPid := rfl
@[simp] theorem State.setSentTid_sentTid (s : State) (v : Word16) : (s.setSentTid v).sentTid = v := rfl
@[simp] theorem State.setSentTid_explen (s : State) (v : Word16) : (s.setSentTid v).explen = s.explen := rfl
@[simp] theorem State.setSentTid_written (s : State) (v : Word16) : (s.setSentTid v).written = { s.written with sentTid := true } := rfl
@[simp] theorem State.setSentTid_rxb (s : State) (v : Word16) : (s.setSentTid v).rxb = s.rxb := rfl
@[simp] theorem State.setSentTid_txb (s : State) (v : Word16) : (s.setSentTid v).txb = s.txb := rfl
@[simp] theorem State.setSentTid_env (s : State) (v : Word16) : (s.setSentTid v).env = s.env := rfl
@[simp] theorem State.setSentTid_outcomes (s : State) (v : Word16) : (s.setSentTid v).outcomes = s.outcomes := rfl
@[simp] theorem State.setSentTid_result (s : State) (v : Word16) : (s.setSentTid v).result = s.result := rfl
@[simp] theorem State.setSentTid_issue (s : State) (v : Word16) : (s.setSentTid v).issue = s.issue := rfl

/-! ### `State.setExplen` -/

@[simp] theorem State.setExplen_dir (s : State) (e : Expectation) : (s.setExplen e).dir = s.dir := rfl
@[simp] theorem State.setExplen_cstate (s : State) (e : Expectation) : (s.setExplen e).cstate = s.cstate := rfl
@[simp] theorem State.setExplen_outcome (s : State) (e : Expectation) : (s.setExplen e).outcome = s.outcome := rfl
@[simp] theorem State.setExplen_warn (s : State) (e : Expectation) : (s.setExplen e).warn = s.warn := rfl
@[simp] theorem State.setExplen_log (s : State) (e : Expectation) : (s.setExplen e).log = s.log := rfl
@[simp] theorem State.setExplen_rxlen (s : State) (e : Expectation) : (s.setExplen e).rxlen = s.rxlen := rfl
@[simp] theorem State.setExplen_txlen (s : State) (e : Expectation) : (s.setExplen e).txlen = s.txlen := rfl
@[simp] theorem State.setExplen_crc (s : State) (e : Expectation) : (s.setExplen e).crc = s.crc := rfl
@[simp] theorem State.setExplen_txid (s : State) (e : Expectation) : (s.setExplen e).txid = s.txid := rfl
@[simp] theorem State.setExplen_savedTid (s : State) (e : Expectation) : (s.setExplen e).savedTid = s.savedTid := rfl
@[simp] theorem State.setExplen_savedPid (s : State) (e : Expectation) : (s.setExplen e).savedPid = s.savedPid := rfl
@[simp] theorem State.setExplen_sentTid (s : State) (e : Expectation) : (s.setExplen e).sentTid = s.sentTid := rfl
@[simp] theorem State.setExplen_explen (s : State) (e : Expectation) : (s.setExplen e).explen = e := rfl
@[simp] theorem State.setExplen_written (s : State) (e : Expectation) : (s.setExplen e).written = { s.written with explen := true } := rfl
@[simp] theorem State.setExplen_rxb (s : State) (e : Expectation) : (s.setExplen e).rxb = s.rxb := rfl
@[simp] theorem State.setExplen_txb (s : State) (e : Expectation) : (s.setExplen e).txb = s.txb := rfl
@[simp] theorem State.setExplen_env (s : State) (e : Expectation) : (s.setExplen e).env = s.env := rfl
@[simp] theorem State.setExplen_outcomes (s : State) (e : Expectation) : (s.setExplen e).outcomes = s.outcomes := rfl
@[simp] theorem State.setExplen_result (s : State) (e : Expectation) : (s.setExplen e).result = s.result := rfl
@[simp] theorem State.setExplen_issue (s : State) (e : Expectation) : (s.setExplen e).issue = s.issue := rfl

/-! ### `State.setTxid` -/

@[simp] theorem State.setTxid_dir (s : State) (v : Word16) : (s.setTxid v).dir = s.dir := rfl
@[simp] theorem State.setTxid_cstate (s : State) (v : Word16) : (s.setTxid v).cstate = s.cstate := rfl
@[simp] theorem State.setTxid_outcome (s : State) (v : Word16) : (s.setTxid v).outcome = s.outcome := rfl
@[simp] theorem State.setTxid_warn (s : State) (v : Word16) : (s.setTxid v).warn = s.warn := rfl
@[simp] theorem State.setTxid_log (s : State) (v : Word16) : (s.setTxid v).log = s.log := rfl
@[simp] theorem State.setTxid_rxlen (s : State) (v : Word16) : (s.setTxid v).rxlen = s.rxlen := rfl
@[simp] theorem State.setTxid_txlen (s : State) (v : Word16) : (s.setTxid v).txlen = s.txlen := rfl
@[simp] theorem State.setTxid_crc (s : State) (v : Word16) : (s.setTxid v).crc = s.crc := rfl
@[simp] theorem State.setTxid_txid (s : State) (v : Word16) : (s.setTxid v).txid = v := rfl
@[simp] theorem State.setTxid_savedTid (s : State) (v : Word16) : (s.setTxid v).savedTid = s.savedTid := rfl
@[simp] theorem State.setTxid_savedPid (s : State) (v : Word16) : (s.setTxid v).savedPid = s.savedPid := rfl
@[simp] theorem State.setTxid_sentTid (s : State) (v : Word16) : (s.setTxid v).sentTid = s.sentTid := rfl
@[simp] theorem State.setTxid_explen (s : State) (v : Word16) : (s.setTxid v).explen = s.explen := rfl
@[simp] theorem State.setTxid_written (s : State) (v : Word16) : (s.setTxid v).written = s.written := rfl
@[simp] theorem State.setTxid_rxb (s : State) (v : Word16) : (s.setTxid v).rxb = s.rxb := rfl
@[simp] theorem State.setTxid_txb (s : State) (v : Word16) : (s.setTxid v).txb = s.txb := rfl
@[simp] theorem State.setTxid_env (s : State) (v : Word16) : (s.setTxid v).env = s.env := rfl
@[simp] theorem State.setTxid_outcomes (s : State) (v : Word16) : (s.setTxid v).outcomes = s.outcomes := rfl
@[simp] theorem State.setTxid_result (s : State) (v : Word16) : (s.setTxid v).result = s.result := rfl
@[simp] theorem State.setTxid_issue (s : State) (v : Word16) : (s.setTxid v).issue = s.issue := rfl

/-! ### `State.setRxlen` -/

@[simp] theorem State.setRxlen_dir (s : State) (n : Nat) : (s.setRxlen n).dir = s.dir := rfl
@[simp] theorem State.setRxlen_cstate (s : State) (n : Nat) : (s.setRxlen n).cstate = s.cstate := rfl
@[simp] theorem State.setRxlen_outcome (s : State) (n : Nat) : (s.setRxlen n).outcome = s.outcome := rfl
@[simp] theorem State.setRxlen_warn (s : State) (n : Nat) : (s.setRxlen n).warn = s.warn := rfl
@[simp] theorem State.setRxlen_log (s : State) (n : Nat) : (s.setRxlen n).log = s.log := rfl
@[simp] theorem State.setRxlen_rxlen (s : State) (n : Nat) : (s.setRxlen n).rxlen = n := rfl
@[simp] theorem State.setRxlen_txlen (s : State) (n : Nat) : (s.setRxlen n).txlen = s.txlen := rfl
@[simp] theorem State.setRxlen_crc (s : State) (n : Nat) : (s.setRxlen n).crc = s.crc := rfl
@[simp] theorem State.setRxlen_txid (s : State) (n : Nat) : (s.setRxlen n).txid = s.txid := rfl
@[simp] theorem State.setRxlen_savedTid (s : State) (n : Nat) : (s.setRxlen n).savedTid = s.savedTid := rfl
@[simp] theorem State.setRxlen_savedPid (s : State) (n : Nat) : (s.setRxlen n).savedPid = s.savedPid := rfl
@[simp] theorem State.setRxlen_sentTid (s : State) (n : Nat) : (s.setRxlen n).sentTid = s.sentTid := rfl
@[simp] theorem State.setRxlen_explen (s : State) (n : Nat) : (s.setRxlen n).explen = s.explen := rfl
@[simp] theorem State.setRxlen_written (s : State) (n : Nat) : (s.setRxlen n).written = s.written := rfl
@[simp] theorem State.setRxlen_rxb (s : State) (n : Nat) : (s.setRxlen n).rxb = s.rxb := rfl
@[simp] theorem State.setRxlen_txb (s : State) (n : Nat) : (s.setRxlen n).txb = s.txb := rfl
@[simp] theorem State.setRxlen_env (s : State) (n : Nat) : (s.setRxlen n).env = s.env := rfl
@[simp] theorem State.setRxlen_outcomes (s : State) (n : Nat) : (s.setRxlen n).outcomes = s.outcomes := rfl
@[simp] theorem State.setRxlen_result (s : State) (n : Nat) : (s.setRxlen n).result = s.result := rfl
@[simp] theorem State.setRxlen_issue (s : State) (n : Nat) : (s.setRxlen n).issue = s.issue := rfl

/-! ### `State.append` -/

@[simp] theorem State.append_dir (s : State) (c : List Byte) : (s.append c).dir = s.dir := rfl
@[simp] theorem State.append_cstate (s : State) (c : List Byte) : (s.append c).cstate = s.cstate := rfl
@[simp] theorem State.append_outcome (s : State) (c : List Byte) : (s.append c).outcome = s.outcome := rfl
@[simp] theorem State.append_warn (s : State) (c : List Byte) : (s.append c).warn = s.warn := rfl
@[simp] theorem State.append_log (s : State) (c : List Byte) : (s.append c).log = s.log := rfl
@[simp] theorem State.append_rxlen (s : State) (c : List Byte) : (s.append c).rxlen = s.rxlen + c.length := rfl
@[simp] theorem State.append_txlen (s : State) (c : List Byte) : (s.append c).txlen = s.txlen := rfl
@[simp] theorem State.append_crc (s : State) (c : List Byte) : (s.append c).crc = s.crc := rfl
@[simp] theorem State.append_txid (s : State) (c : List Byte) : (s.append c).txid = s.txid := rfl
@[simp] theorem State.append_savedTid (s : State) (c : List Byte) : (s.append c).savedTid = s.savedTid := rfl
@[simp] theorem State.append_savedPid (s : State) (c : List Byte) : (s.append c).savedPid = s.savedPid := rfl
@[simp] theorem State.append_sentTid (s : State) (c : List Byte) : (s.append c).sentTid = s.sentTid := rfl
@[simp] theorem State.append_explen (s : State) (c : List Byte) : (s.append c).explen = s.explen := rfl
@[simp] theorem State.append_written (s : State) (c : List Byte) : (s.append c).written = s.written := rfl
@[simp] theorem State.append_rxb (s : State) (c : List Byte) : (s.append c).rxb = Buffer.putAll s.rxlen c s.rxb := rfl
@[simp] theorem State.append_txb (s : State) (c : List Byte) : (s.append c).txb = s.txb := rfl
@[simp] theorem State.append_env (s : State) (c : List Byte) : (s.append c).env = s.env := rfl
@[simp] theorem State.append_outcomes (s : State) (c : List Byte) : (s.append c).outcomes = s.outcomes := rfl
@[simp] theorem State.append_result (s : State) (c : List Byte) : (s.append c).result = s.result := rfl
@[simp] theorem State.append_issue (s : State) (c : List Byte) : (s.append c).issue = s.issue := rfl

/-! ### `State.setResult` -/

@[simp] theorem State.setResult_dir (s : State) (r : OpResult) : (s.setResult r).dir = s.dir := rfl
@[simp] theorem State.setResult_cstate (s : State) (r : OpResult) : (s.setResult r).cstate = s.cstate := rfl
@[simp] theorem State.setResult_outcome (s : State) (r : OpResult) : (s.setResult r).outcome = s.outcome := rfl
@[simp] theorem State.setResult_warn (s : State) (r : OpResult) : (s.setResult r).warn = s.warn := rfl
@[simp] theorem State.setResult_log (s : State) (r : OpResult) : (s.setResult r).log = s.log := rfl
@[simp] theorem State.setResult_rxlen (s : State) (r : OpResult) : (s.setResult r).rxlen = s.rxlen := rfl
@[simp] theorem State.setResult_txlen (s : State) (r : OpResult) : (s.setResult r).txlen = s.txlen := rfl
@[simp] theorem State.setResult_crc (s : State) (r : OpResult) : (s.setResult r).crc = s.crc := rfl
@[simp] theorem State.setResult_txid (s : State) (r : OpResult) : (s.setResult r).txid = s.txid := rfl
@[simp] theorem State.setResult_savedTid (s : State) (r : OpResult) : (s.setResult r).savedTid = s.savedTid := rfl
@[simp] theorem State.setResult_savedPid (s : State) (r : OpResult) : (s.setResult r).savedPid = s.savedPid := rfl
@[simp] theorem State.setResult_sentTid (s : State) (r : OpResult) : (s.setResult r).sentTid = s.sentTid := rfl
@[simp] theorem State.setResult_explen (s : State) (r : OpResult) : (s.setResult r).explen = s.explen := rfl
@[simp] theorem State.setResult_written (s : State) (r : OpResult) : (s.setResult r).written = s.written := rfl
@[simp] theorem State.setResult_rxb (s : State) (r : OpResult) : (s.setResult r).rxb = s.rxb := rfl
@[simp] theorem State.setResult_txb (s : State) (r : OpResult) : (s.setResult r).txb = s.txb := rfl
@[simp] theorem State.setResult_env (s : State) (r : OpResult) : (s.setResult r).env = s.env := rfl
@[simp] theorem State.setResult_outcomes (s : State) (r : OpResult) : (s.setResult r).outcomes = s.outcomes := rfl
@[simp] theorem State.setResult_result (s : State) (r : OpResult) : (s.setResult r).result = r := rfl
@[simp] theorem State.setResult_issue (s : State) (r : OpResult) : (s.setResult r).issue = s.issue := rfl

/-! ### `State.setEnv` -/

@[simp] theorem State.setEnv_dir (s : State) (e : Env) : (s.setEnv e).dir = s.dir := rfl
@[simp] theorem State.setEnv_cstate (s : State) (e : Env) : (s.setEnv e).cstate = s.cstate := rfl
@[simp] theorem State.setEnv_outcome (s : State) (e : Env) : (s.setEnv e).outcome = s.outcome := rfl
@[simp] theorem State.setEnv_warn (s : State) (e : Env) : (s.setEnv e).warn = s.warn := rfl
@[simp] theorem State.setEnv_log (s : State) (e : Env) : (s.setEnv e).log = s.log := rfl
@[simp] theorem State.setEnv_rxlen (s : State) (e : Env) : (s.setEnv e).rxlen = s.rxlen := rfl
@[simp] theorem State.setEnv_txlen (s : State) (e : Env) : (s.setEnv e).txlen = s.txlen := rfl
@[simp] theorem State.setEnv_crc (s : State) (e : Env) : (s.setEnv e).crc = s.crc := rfl
@[simp] theorem State.setEnv_txid (s : State) (e : Env) : (s.setEnv e).txid = s.txid := rfl
@[simp] theorem State.setEnv_savedTid (s : State) (e : Env) : (s.setEnv e).savedTid = s.savedTid := rfl
@[simp] theorem State.setEnv_savedPid (s : State) (e : Env) : (s.setEnv e).savedPid = s.savedPid := rfl
@[simp] theorem State.setEnv_sentTid (s : State) (e : Env) : (s.setEnv e).sentTid = s.sentTid := rfl
@[simp] theorem State.setEnv_explen (s : State) (e : Env) : (s.setEnv e).explen = s.explen := rfl
@[simp] theorem State.setEnv_written (s : State) (e : Env) : (s.setEnv e).written = s.written := rfl
@[simp] theorem State.setEnv_rxb (s : State) (e : Env) : (s.setEnv e).rxb = s.rxb := rfl
@[simp] theorem State.setEnv_txb (s : State) (e : Env) : (s.setEnv e).txb = s.txb := rfl
@[simp] theorem State.setEnv_env (s : State) (e : Env) : (s.setEnv e).env = e := rfl
@[simp] theorem State.setEnv_outcomes (s : State) (e : Env) : (s.setEnv e).outcomes = s.outcomes := rfl
@[simp] theorem State.setEnv_result (s : State) (e : Env) : (s.setEnv e).result = s.result := rfl
@[simp] theorem State.setEnv_issue (s : State) (e : Env) : (s.setEnv e).issue = s.issue := rfl

end Sys2Proof.Machine
end

