-- ==== Sys2Proof/Laws/Links.lean ====
section
/-! SUPPORT. What each link primitive and a sample of `cancel` can do: which link it touches, that none of them opens or closes a
link but LinkClose, that a chunk fits the read, and that `cancel` never returns to 0. -/

namespace Sys2Proof.Machine

/-! ### One link replaced -/

@[simp] theorem Env.link_setLink_same (e : Env) (l : LinkId) (x : Link) : (e.setLink l x).link l = x := by
  cases l <;> rfl

theorem Env.link_setLink_other (e : Env) {l m : LinkId} (x : Link) (h : m ≠ l) : (e.setLink l x).link m = e.link m := by
  cases l <;> cases m <;> first | rfl | exact absurd rfl h

@[simp] theorem Env.setLink_cancel (e : Env) (l : LinkId) (x : Link) : (e.setLink l x).cancel = e.cancel := by
  cases l <;> rfl

@[simp] theorem Env.setLink_cancels (e : Env) (l : LinkId) (x : Link) : (e.setLink l x).cancels = e.cancels := by
  cases l <;> rfl

@[simp] theorem Env.setLink_draws (e : Env) (l : LinkId) (x : Link) : (e.setLink l x).draws = e.draws := by
  cases l <;> rfl

@[simp] theorem Env.tick_link (e : Env) (l : LinkId) : e.tick.link l = e.link l := by cases l <;> rfl
@[simp] theorem Env.tick_cancel (e : Env) : e.tick.cancel = e.cancel := rfl
@[simp] theorem Env.tick_cancels (e : Env) : e.tick.cancels = e.cancels := rfl
@[simp] theorem Env.tick_draws (e : Env) : e.tick.draws = e.draws + 1 := rfl

/-! ### The other link is left alone -/

theorem Env.afterRecv_other (e : Env) {l m : LinkId} (max : Nat) (h : m ≠ l) : (e.afterRecv l max).link m = e.link m := by
  simp [Env.afterRecv, Env.link_setLink_other _ _ h]

theorem Env.afterPending_other (e : Env) {l m : LinkId} (h : m ≠ l) : (e.afterPending l).link m = e.link m := by
  simp [Env.afterPending, Env.link_setLink_other _ _ h]

theorem Env.afterSend_other (e : Env) {l m : LinkId} (bs : List Byte) (h : m ≠ l) : (e.afterSend l bs).link m = e.link m := by
  simp [Env.afterSend, Env.link_setLink_other _ _ h]

theorem Env.afterDiscard_other (e : Env) {l m : LinkId} (h : m ≠ l) : (e.afterDiscard l).link m = e.link m := by
  simp [Env.afterDiscard, Env.link_setLink_other _ _ h]

theorem Env.afterClose_other (e : Env) {l m : LinkId} (h : m ≠ l) : (e.afterClose l).link m = e.link m := by
  simp [Env.afterClose, Env.link_setLink_other _ _ h]

@[simp] theorem Env.afterSample_link (e : Env) (l : LinkId) : e.afterSample.link l = e.link l := by cases l <;> rfl

/-! ### Only LinkClose changes whether a link is open -/

@[simp] theorem Env.afterRecv_isOpen (e : Env) (l m : LinkId) (max : Nat) :
    ((e.afterRecv l max).link m).isOpen = (e.link m).isOpen := by
  by_cases h : m = l
  · subst h; simp [Env.afterRecv]
  · rw [Env.afterRecv_other e max h]

@[simp] theorem Env.afterPending_isOpen (e : Env) (l m : LinkId) :
    ((e.afterPending l).link m).isOpen = (e.link m).isOpen := by
  by_cases h : m = l
  · subst h; simp [Env.afterPending]
  · rw [Env.afterPending_other e h]

@[simp] theorem Env.afterSend_isOpen (e : Env) (l m : LinkId) (bs : List Byte) :
    ((e.afterSend l bs).link m).isOpen = (e.link m).isOpen := by
  by_cases h : m = l
  · subst h; simp [Env.afterSend]
  · rw [Env.afterSend_other e bs h]

@[simp] theorem Env.afterDiscard_isOpen (e : Env) (l m : LinkId) :
    ((e.afterDiscard l).link m).isOpen = (e.link m).isOpen := by
  by_cases h : m = l
  · subst h; simp [Env.afterDiscard]
  · rw [Env.afterDiscard_other e h]

theorem Env.afterClose_isOpen (e : Env) (l m : LinkId) :
    ((e.afterClose l).link m).isOpen = ((e.link m).isOpen && decide (m ≠ l)) := by
  by_cases h : m = l
  · subst h; simp [Env.afterClose]
  · simp [Env.afterClose_other e h, h]

/-! ### Which link primitives take an answer from which list -/

theorem Env.afterRecv_link (e : Env) (l : LinkId) (max : Nat) :
    (e.afterRecv l max).link l = { e.link l with
      answers := RecvAnswer.leftover max (e.nextAnswer l) ++ (e.link l).answers.tail } := by
  simp [Env.afterRecv]

theorem Env.afterPending_link (e : Env) (l : LinkId) :
    (e.afterPending l).link l = { e.link l with pendings := (e.link l).pendings.tail } := by
  simp [Env.afterPending]

theorem Env.afterSend_link (e : Env) (l : LinkId) (bs : List Byte) :
    (e.afterSend l bs).link l = { e.link l with
      sends := (e.link l).sends.tail
      tx := (e.link l).tx ++ SendAnswer.delivered bs (e.sendAnswer l)
      calls := (e.link l).calls ++ [.sent bs (SendAnswer.accepted (e.sendAnswer l))] } := by
  simp [Env.afterSend]

theorem Env.afterDiscard_link (e : Env) (l : LinkId) :
    (e.afterDiscard l).link l = { e.link l with
      answers := dropBytes (e.discardAmount l) (e.link l).answers
      discards := (e.link l).discards.tail
      calls := (e.link l).calls ++ [.discarded] } := by
  simp [Env.afterDiscard]

theorem Env.afterClose_link (e : Env) (l : LinkId) :
    (e.afterClose l).link l = { e.link l with isOpen := false, calls := (e.link l).calls ++ [.closed] } := by
  simp [Env.afterClose]

/-! ### The cancellation input -/

@[simp] theorem Env.afterRecv_cancel (e : Env) (l : LinkId) (max : Nat) : (e.afterRecv l max).cancel = e.cancel := by
  simp [Env.afterRecv]

@[simp] theorem Env.afterPending_cancel (e : Env) (l : LinkId) : (e.afterPending l).cancel = e.cancel := by
  simp [Env.afterPending]

@[simp] theorem Env.afterSend_cancel (e : Env) (l : LinkId) (bs : List Byte) : (e.afterSend l bs).cancel = e.cancel := by
  simp [Env.afterSend]

@[simp] theorem Env.afterDiscard_cancel (e : Env) (l : LinkId) : (e.afterDiscard l).cancel = e.cancel := by
  simp [Env.afterDiscard]

@[simp] theorem Env.afterClose_cancel (e : Env) (l : LinkId) : (e.afterClose l).cancel = e.cancel := by
  simp [Env.afterClose]

@[simp] theorem Env.afterSample_cancel (e : Env) : e.afterSample.cancel = e.cancelNow := rfl

/-- Once 1, `cancel` stays 1. -/
theorem Env.cancelNow_of_cancel {e : Env} (h : e.cancel = true) : e.cancelNow = true := by simp [Env.cancelNow, h]

/-! ### The answer of a read -/

/-- A chunk has at least one byte and at most the number asked for. -/
theorem RecvAnswer.cut_data {max : Nat} {a : RecvAnswer} {b : Byte} {bs : List Byte} (h : RecvAnswer.cut max a = .data b bs)
    (hm : 1 ≤ max) : (b :: bs).length ≤ max := by
  cases a with
  | data c cs =>
    simp only [RecvAnswer.cut, RecvAnswer.data.injEq] at h
    obtain ⟨-, rfl⟩ := h
    simp only [List.length_cons, List.length_take]
    omega
  | zero => cases h
  | timedOut => cases h
  | fault k => cases h

end Sys2Proof.Machine
end

