-- ==== Sys2Proof/Laws/Ops.lean ====
section
/-! SUPPORT. One lemma per shared operation: everything it can do when it answers a next value. -/

namespace Sys2Proof.Machine

/-! ### Sequencing -/

@[simp] theorem andThen_next {α β : Type} (a : α) (k : α → Host.Outcome β Fault Refusal) : andThen (.next a) k = k a := rfl

@[simp] theorem andThen_fault {α β : Type} (r : Fault) (k : α → Host.Outcome β Fault Refusal) :
    andThen (.fault r) k = .fault r := rfl

@[simp] theorem andThen_refused {α β : Type} (r : Refusal) (k : α → Host.Outcome β Fault Refusal) :
    andThen (.refused r) k = .refused r := rfl

theorem andThen_eq_next {α β : Type} {x : Host.Outcome α Fault Refusal} {k : α → Host.Outcome β Fault Refusal} {b : β}
    (h : andThen x k = .next b) : ∃ a, x = .next a ∧ k a = .next b := by
  cases x with
  | next a => exact ⟨a, rfl, h⟩
  | fault r => cases h
  | refused r => cases h

theorem needOpen_eq_next {α : Type} {l : LinkId} {s : State} {x : Host.Outcome α Fault Refusal} {a : α}
    (h : needOpen l s x = .next a) : (s.env.link l).isOpen = true ∧ x = .next a := by
  unfold needOpen at h
  split at h
  · exact ⟨‹_›, h⟩
  · cases h

theorem needOpen_of_open {α : Type} {l : LinkId} {s : State} {x : Host.Outcome α Fault Refusal}
    (h : (s.env.link l).isOpen = true) : needOpen l s x = x := by simp [needOpen, h]

/-! ### Registers and buffers -/

theorem rxRead_eq_next {off n : Nat} {s : State} {bs : List Byte} (h : rxRead off n s = .next bs) :
    off + n ≤ s.rxlen ∧ Buffer.slice s.rxb off n = some bs := by
  unfold rxRead at h
  split at h
  · split at h <;> cases h
    exact ⟨‹_›, ‹_›⟩
  · cases h

theorem rxRead_of_slice {off n : Nat} {s : State} {bs : List Byte} (hn : off + n ≤ s.rxlen)
    (h : Buffer.slice s.rxb off n = some bs) : rxRead off n s = .next bs := by simp [rxRead, hn, h]

theorem txRead_eq_next {s : State} {bs : List Byte} (h : txRead s = .next bs) : Buffer.slice s.txb 0 s.txlen = some bs := by
  unfold txRead at h
  split at h <;> cases h
  exact ‹_›

theorem stage_eq_next {frame : List Byte} {s t : State} (h : stage frame s = .next t) :
    frame.length ≤ Config.txCap ∧ t = { s with txb := Buffer.putAll 0 frame s.txb, txlen := frame.length } := by
  unfold stage at h
  split at h <;> cases h
  exact ⟨‹_›, rfl⟩

theorem mbapLength_eq_next {n : Nat} {x : Out} {t : State} (h : mbapLength n x = .next t) :
    (7 ≤ n ∧ n ≤ Config.cap) ∧ x = .next t := by
  unfold mbapLength at h
  split at h
  · exact ⟨‹_›, h⟩
  · cases h

theorem rtuLength_eq_next {n : Nat} {x : Out} {t : State} (h : rtuLength n x = .next t) :
    (3 ≤ n ∧ n ≤ Config.cap) ∧ x = .next t := by
  unfold rtuLength at h
  split at h
  · cases h
  · split at h
    · exact ⟨by omega, h⟩
    · cases h

/-! ### The fatal path -/

/-- TAKING AN EXCEPTION, everything it can do. -/
theorem teardown_eq_next {o : FatalOutcome} {s t : State} (h : teardown o s = .next t) :
    (s.env.link .M).isOpen = true ∧ (s.env.link .S).isOpen = true ∧
      t = (s.setEnv ((s.env.afterClose .M).afterClose .S)).setCState .closed := by
  obtain ⟨hm, h⟩ := needOpen_eq_next h
  obtain ⟨hs, h⟩ := needOpen_eq_next h
  cases h
  exact ⟨hm, hs, rfl⟩

theorem teardown_of_open {o : FatalOutcome} {s : State} (hm : (s.env.link .M).isOpen = true)
    (hs : (s.env.link .S).isOpen = true) :
    teardown o s = .next ((s.setEnv ((s.env.afterClose .M).afterClose .S)).setCState .closed) := by
  simp [teardown, needOpen, hm, hs]

/-! ### Links -/

theorem flushSlave_eq_next {s t : State} (h : flushSlave s = .next t) :
    (s.env.link .S).isOpen = true ∧ t = s.setEnv (s.env.afterDiscard .S) := by
  obtain ⟨ho, h⟩ := needOpen_eq_next h
  cases h
  exact ⟨ho, rfl⟩

theorem sendStaged_eq_next {l : LinkId} {s : State} {p : Option Category × State} (h : sendStaged l s = .next p) :
    (1 ≤ s.txlen ∧ s.txlen ≤ Config.txCap) ∧ (s.env.link l).isOpen = true ∧
      ∃ frame, Buffer.slice s.txb 0 s.txlen = some frame ∧ p = recordSend l frame s := by
  unfold sendStaged at h
  split at h
  · obtain ⟨ho, h⟩ := needOpen_eq_next h
    obtain ⟨frame, hf, h⟩ := andThen_eq_next h
    cases h
    exact ⟨‹_›, ho, frame, txRead_eq_next hf, rfl⟩
  · cases h

/-- The two answers of a send. -/
theorem recordSend_cases (l : LinkId) (frame : List Byte) (s : State) :
    (s.env.sendAnswer l = .ok ∧ recordSend l frame s = (none, s.setEnv (s.env.afterSend l frame))) ∨
    (∃ k r, s.env.sendAnswer l = .fault k r ∧
      recordSend l frame s = (some k, (s.setEnv (s.env.afterSend l frame)).setOutcome (.fatal (.rawError k)))) := by
  unfold recordSend
  split
  · exact .inl ⟨‹_›, rfl⟩
  · next k r h => exact .inr ⟨k, r, h, rfl⟩

/-! ### The converter operations -/

theorem t2rReq_eq_next {n : Nat} {s t : State} (h : t2rReq n s = .next t) :
    (7 ≤ n ∧ n ≤ Config.cap) ∧ n ≤ s.rxlen ∧ ∃ frame, Buffer.slice s.rxb 0 n = some frame ∧
      t = { (s.saveIds (be16At 0 frame) (be16At 2 frame)).setCrc (crc16 (frame.drop 6)) with
        txb := Buffer.putAll 0 (rtuFrame (frame.drop 6)) s.txb
        txlen := (rtuFrame (frame.drop 6)).length
        explen := requestExpectation frame
        written := { s.written with savedTid := true, savedPid := true, crc := true, explen := true } } := by
  obtain ⟨hn, h⟩ := mbapLength_eq_next h
  obtain ⟨frame, hf, h⟩ := andThen_eq_next h
  obtain ⟨u, hu, h⟩ := andThen_eq_next h
  obtain ⟨h1, h2⟩ := rxRead_eq_next hf
  obtain ⟨-, rfl⟩ := stage_eq_next hu
  cases h
  exact ⟨hn, by omega, frame, h2, rfl⟩

theorem t2rRsp_eq_next {m : Nat} {s t : State} (h : t2rRsp m s = .next t) :
    (3 ≤ m ∧ m ≤ Config.cap) ∧ m - 2 ≤ s.rxlen ∧
      ∃ body, Buffer.slice s.rxb 0 (m - 2) = some body ∧
        t = { s with
          txb := Buffer.putAll 0 (mbapHeader s.savedTid s.savedPid (m - 2) ++ body) s.txb
          txlen := (mbapHeader s.savedTid s.savedPid (m - 2) ++ body).length } := by
  obtain ⟨hm, h⟩ := rtuLength_eq_next h
  obtain ⟨body, hb, h⟩ := andThen_eq_next h
  obtain ⟨h1, h2⟩ := rxRead_eq_next hb
  obtain ⟨-, rfl⟩ := stage_eq_next h
  exact ⟨hm, by omega, body, h2, rfl⟩

theorem r2tReq_eq_next {n : Nat} {s t : State} (h : r2tReq n s = .next t) :
    (3 ≤ n ∧ n ≤ Config.cap) ∧ n - 2 ≤ s.rxlen ∧ ∃ body, Buffer.slice s.rxb 0 (n - 2) = some body ∧
      t = { s.setSentTid s.txid with
        txb := Buffer.putAll 0 (mbapHeader s.txid 0#16 (n - 2) ++ body) s.txb
        txlen := (mbapHeader s.txid 0#16 (n - 2) ++ body).length } := by
  obtain ⟨hn, h⟩ := rtuLength_eq_next h
  obtain ⟨body, hb, h⟩ := andThen_eq_next h
  obtain ⟨h1, h2⟩ := rxRead_eq_next hb
  obtain ⟨-, rfl⟩ := stage_eq_next h
  exact ⟨hn, by omega, body, h2, rfl⟩

theorem r2tRsp_eq_next {m : Nat} {s t : State} (h : r2tRsp m s = .next t) :
    (7 ≤ m ∧ m ≤ Config.cap) ∧ m ≤ s.rxlen ∧ ∃ frame, Buffer.slice s.rxb 0 m = some frame ∧
      t = { (checkTid frame s.sentTid s).setCrc (crc16 (frame.drop 6)) with
        txb := Buffer.putAll 0 (rtuFrame (frame.drop 6)) (checkTid frame s.sentTid s).txb
        txlen := (rtuFrame (frame.drop 6)).length } := by
  obtain ⟨hm, h⟩ := mbapLength_eq_next h
  obtain ⟨frame, hf, h⟩ := andThen_eq_next h
  obtain ⟨h1, h2⟩ := rxRead_eq_next hf
  obtain ⟨-, rfl⟩ := stage_eq_next h
  exact ⟨hm, by omega, frame, h2, rfl⟩

@[simp] theorem rtuFrame_length (body : List Byte) : (rtuFrame body).length = body.length + 2 := by simp [rtuFrame]

@[simp] theorem mbapHeader_length (tid pid : Word16) (n : Nat) : (mbapHeader tid pid n).length = 6 := by
  simp [mbapHeader, beBytes]

end Sys2Proof.Machine
end

