-- ==== Sys2Proof/Laws/Reader.lean ====
section
/-! SUPPORT. What a reader invocation can do: an induction packaged once over the iterations of the reader loop, and what the two
readers' tests can answer and change. -/

namespace Sys2Proof.Machine

/-- The environment a reader iteration leaves after its LinkRecv. -/
def iterationEnv (l : LinkId) (cap : Nat) (s : State) : Env := s.env.afterSample.afterRecv l (cap - s.rxlen)

/-- The state a reader iteration tests: the chunk appended. -/
def iterationState (l : LinkId) (cap : Nat) (s : State) (chunk : List Byte) : State :=
  (s.setEnv (iterationEnv l cap s)).append chunk

/-- The reader loop, packaged once: what holds before every iteration (`P`) and what every way of ending establishes (`Q`). -/
theorem readLoop_induct {l : LinkId} {cap : Nat} {verdict : State → Option ReadOutcome × State} {P : State → Prop}
    {Q : ReadOutcome → State → Prop}
    (aborted : ∀ s, P s → s.env.cancelNow = true → Q (.fatal .aborted) (s.setEnv s.env.afterSample))
    (full : ∀ s, P s → Q (.fatal .bufferFull) (s.setEnv s.env.afterSample))
    (zero : ∀ s, P s → Q (.fatal .disconnected) (s.setEnv (iterationEnv l cap s)))
    (timedOut : ∀ s, P s → Q .timeout (s.setEnv (iterationEnv l cap s)))
    (fault : ∀ s k, P s → Q (.fatal (.rawError k)) (s.setEnv (iterationEnv l cap s)))
    (done : ∀ s b bs o u, P s → s.rxlen ≠ cap → s.env.afterSample.recvAnswer l (cap - s.rxlen) = .data b bs →
      verdict (iterationState l cap s (b :: bs)) = (some o, u) → Q o u)
    (again : ∀ s b bs u, P s → s.rxlen ≠ cap → s.env.afterSample.recvAnswer l (cap - s.rxlen) = .data b bs →
      verdict (iterationState l cap s (b :: bs)) = (none, u) → P u)
    (room : Nat) (s : State) (h : P s) :
    Q (readLoop l cap verdict room s).1 (readLoop l cap verdict room s).2 := by
  induction room generalizing s with
  | zero =>
    unfold readLoop
    dsimp only
    split
    · exact aborted s h ‹_›
    · exact full s h
  | succ room ih =>
    unfold readLoop
    split
    · exact aborted s h ‹_›
    split
    · exact full s h
    dsimp only
    split
    · exact zero s h
    · exact timedOut s h
    · exact fault s _ h
    · next b bs hd =>
      split
      · next o u hv => exact done s b bs o u h ‹_› hd hv
      · next u hv => exact ih u (again s b bs u h ‹_› hd hv)

/-- One reader invocation: when it answers, the capacity is in range, the link is open, and it is the loop from RXLEN = 0 with
the outcome recorded. -/
theorem readFrame_eq_next {l : LinkId} {cap : Nat} {verdict : State → Option ReadOutcome × State} {s : State}
    {p : ReadOutcome × State} (h : readFrame l cap verdict s = .next p) :
    cap ≤ Config.cap ∧ (s.env.link l).isOpen = true ∧
      p = ((readLoop l cap verdict cap (s.setRxlen 0)).1,
        (readLoop l cap verdict cap (s.setRxlen 0)).2.setOutcome (readLoop l cap verdict cap (s.setRxlen 0)).1) := by
  unfold readFrame at h
  split at h
  · obtain ⟨ho, h⟩ := needOpen_eq_next h
    cases h
    exact ⟨‹_›, ho, rfl⟩
  · cases h

theorem readFrame_of_open {l : LinkId} {cap : Nat} (verdict : State → Option ReadOutcome × State) {s : State}
    (hc : cap ≤ Config.cap) (ho : (s.env.link l).isOpen = true) : ∃ p, readFrame l cap verdict s = .next p := by
  simp [readFrame, hc, needOpen, ho]

/-- The frame a reader tests is the chunk behind what it had. -/
theorem rxFrame_append {s : State} {bs : List Byte} (h : Buffer.slice s.rxb 0 s.rxlen = some bs) (c : List Byte) :
    (s.append c).rxFrame = bs ++ c := by
  simp [State.rxFrame, Buffer.slice_append h]

/-! ### The MBAP tests -/

@[simp] theorem mbapVerdict_state (s : State) : (mbapVerdict s).2 = s := rfl

/-- What the MBAP tests can answer. -/
theorem mbapVerdict_cases (s : State) :
    (6 < s.rxlen ∧ s.rxlen = beField 2 4 s.rxFrame + 6 ∧ mbapVerdict s = (some (.success s.rxlen), s)) ∨
    (6 < s.rxlen ∧ beField 2 4 s.rxFrame + 6 < s.rxlen ∧ mbapVerdict s = (some (.fatal .tooMuchData), s)) ∨
    ((s.rxlen ≤ 6 ∨ s.rxlen < beField 2 4 s.rxFrame + 6) ∧ mbapVerdict s = (none, s)) := by
  by_cases h6 : 6 < s.rxlen
  · by_cases he : s.rxlen = beField 2 4 s.rxFrame + 6
    · exact .inl ⟨h6, he, by simp only [mbapVerdict, if_pos h6, if_pos he]⟩
    · by_cases hl : beField 2 4 s.rxFrame + 6 < s.rxlen
      · exact .inr (.inl ⟨h6, hl, by simp only [mbapVerdict, if_pos h6, if_neg he, if_pos hl]⟩)
      · exact .inr (.inr ⟨.inr (by omega), by simp only [mbapVerdict, if_pos h6, if_neg he, if_neg hl]⟩)
  · exact .inr (.inr ⟨.inl (by omega), by simp only [mbapVerdict, if_neg h6]⟩)

/-! ### The RTU tests -/

/-- What the RTU tests may change: CRC, and WARN and LOG together. -/
theorem rtuTests_state (exp : Expectation) (p : Bool) (s : State) :
    (rtuTests exp p s).2 = s ∨ (∃ v, (rtuTests exp p s).2 = s.setCrc v) ∨ (rtuTests exp p s).2 = s.logEvent .wCrc ∨
      ∃ v, (rtuTests exp p s).2 = (s.setCrc v).logEvent .wCrc := by
  unfold rtuTests
  split
  · exact .inl rfl
  · cases exp with
    | known e =>
      simp only [knownVerdict]
      split
      · exact .inr (.inl ⟨_, rfl⟩)
      · repeat' split
        all_goals exact .inl rfl
    | unknown =>
      simp only [unknownVerdict]
      split
      · exact .inl rfl
      · split
        · exact .inr (.inr (.inl rfl))
        · split
          · exact .inr (.inl ⟨_, rfl⟩)
          · exact .inr (.inr (.inr ⟨_, rfl⟩))

/-- A success of the RTU tests returns the number of bytes accumulated, and never two. -/
theorem rtuTests_success {exp : Expectation} {p : Bool} {s u : State} {n : Nat}
    (h : rtuTests exp p s = (some (.success n), u)) : n = s.rxlen ∧ n ≠ 2 := by
  unfold rtuTests at h
  split at h
  · simp at h
  · next h2 =>
    cases exp with
    | known e =>
      simp only [knownVerdict] at h
      split at h
      · split at h <;> simp at h
        omega
      · split at h
        · simp at h
        · split at h
          · simp at h; omega
          · simp at h
    | unknown =>
      simp only [unknownVerdict] at h
      split at h
      · simp at h
      · have hp : p = false := by simpa using ‹¬p = true›
        have hn : s.rxlen ≠ 2 := fun hc => h2 ⟨hc, hp⟩
        split at h
        · simp at h; omega
        · split at h <;> (simp at h; omega)

/-! ### What a reader leaves alone, and what it establishes -/

/-- What a reader on link `l` leaves alone between two states of one invocation. WARN and LOG are not among it: the
unknown-length path may log. -/
structure ReaderKeeps (l : LinkId) (s t : State) : Prop where
  dir : t.dir = s.dir
  cstate : t.cstate = s.cstate
  outcome : t.outcome = s.outcome
  outcomes : t.outcomes = s.outcomes
  txlen : t.txlen = s.txlen
  txid : t.txid = s.txid
  savedTid : t.savedTid = s.savedTid
  savedPid : t.savedPid = s.savedPid
  sentTid : t.sentTid = s.sentTid
  explen : t.explen = s.explen
  written : { t.written with crc := s.written.crc } = s.written
  txb : t.txb = s.txb
  result : t.result = s.result
  issue : t.issue = s.issue
  grows : s.rxlen ≤ t.rxlen
  before : ∀ a, a < s.rxlen → Buffer.get t.rxb a = Buffer.get s.rxb a
  behind : ∀ a, t.rxlen ≤ a → Buffer.get t.rxb a = Buffer.get s.rxb a
  otherLink : ∀ m, m ≠ l → t.env.link m = s.env.link m
  isOpen : (t.env.link l).isOpen = (s.env.link l).isOpen
  tx : (t.env.link l).tx = (s.env.link l).tx
  calls : (t.env.link l).calls = (s.env.link l).calls
  sends : (t.env.link l).sends = (s.env.link l).sends
  discards : (t.env.link l).discards = (s.env.link l).discards
  cancel : s.env.cancel = true → t.env.cancel = true

theorem ReaderKeeps.refl (l : LinkId) (s : State) : ReaderKeeps l s s := by
  constructor <;> first | rfl | exact Nat.le_refl _ | exact fun _ _ => rfl | exact id

theorem ReaderKeeps.trans {l : LinkId} {s t u : State} (h : ReaderKeeps l s t) (k : ReaderKeeps l t u) :
    ReaderKeeps l s u where
  dir := k.dir.trans h.dir
  cstate := k.cstate.trans h.cstate
  outcome := k.outcome.trans h.outcome
  outcomes := k.outcomes.trans h.outcomes
  txlen := k.txlen.trans h.txlen
  txid := k.txid.trans h.txid
  savedTid := k.savedTid.trans h.savedTid
  savedPid := k.savedPid.trans h.savedPid
  sentTid := k.sentTid.trans h.sentTid
  explen := k.explen.trans h.explen
  written := by
    have h1 := h.written
    have h2 := k.written
    rw [← h1, ← h2]
  txb := k.txb.trans h.txb
  result := k.result.trans h.result
  issue := k.issue.trans h.issue
  grows := Nat.le_trans h.grows k.grows
  before := fun a ha => (k.before a (Nat.lt_of_lt_of_le ha h.grows)).trans (h.before a ha)
  behind := fun a ha => (k.behind a ha).trans (h.behind a (Nat.le_trans k.grows ha))
  otherLink := fun m hm => (k.otherLink m hm).trans (h.otherLink m hm)
  isOpen := k.isOpen.trans h.isOpen
  tx := k.tx.trans h.tx
  calls := k.calls.trans h.calls
  sends := k.sends.trans h.sends
  discards := k.discards.trans h.discards
  cancel := fun hc => k.cancel (h.cancel hc)

/-- Which link a link's both conditions follow from: a reader opens and closes neither. -/
theorem ReaderKeeps.isOpen_all {l : LinkId} {s t : State} (h : ReaderKeeps l s t) (m : LinkId) :
    (t.env.link m).isOpen = (s.env.link m).isOpen := by
  by_cases hm : m = l
  · subst hm; exact h.isOpen
  · rw [h.otherLink m hm]

/-- A change of the environment that a reader may make. -/
theorem ReaderKeeps.ofEnv {l : LinkId} {s : State} {e : Env} (ho : ∀ m, m ≠ l → e.link m = s.env.link m)
    (h1 : (e.link l).isOpen = (s.env.link l).isOpen) (h2 : (e.link l).tx = (s.env.link l).tx)
    (h3 : (e.link l).calls = (s.env.link l).calls) (h4 : (e.link l).sends = (s.env.link l).sends)
    (h5 : (e.link l).discards = (s.env.link l).discards) (h6 : s.env.cancel = true → e.cancel = true) :
    ReaderKeeps l s (s.setEnv e) := by
  constructor <;> first | rfl | exact Nat.le_refl _ | exact fun _ _ => rfl | assumption

theorem ReaderKeeps.sample (l : LinkId) (s : State) : ReaderKeeps l s (s.setEnv s.env.afterSample) :=
  .ofEnv (fun m _ => by simp) (by simp) (by simp) (by simp) (by simp) (by simp)
    (fun h => Env.cancelNow_of_cancel h)

theorem ReaderKeeps.receive (l : LinkId) (cap : Nat) (s : State) : ReaderKeeps l s (s.setEnv (iterationEnv l cap s)) :=
  .ofEnv (fun m hm => by rw [iterationEnv, Env.afterRecv_other _ _ hm, Env.afterSample_link])
    (by simp [iterationEnv]) (by simp [iterationEnv, Env.afterRecv_link]) (by simp [iterationEnv, Env.afterRecv_link])
    (by simp [iterationEnv, Env.afterRecv_link]) (by simp [iterationEnv, Env.afterRecv_link])
    (fun h => by simpa [iterationEnv] using Env.cancelNow_of_cancel h)

theorem ReaderKeeps.pending (l : LinkId) (s : State) : ReaderKeeps l s (s.setEnv (s.env.afterPending l)) :=
  .ofEnv (fun m hm => Env.afterPending_other _ hm) (by simp) (by simp [Env.afterPending_link])
    (by simp [Env.afterPending_link]) (by simp [Env.afterPending_link]) (by simp [Env.afterPending_link]) (by simp)

theorem ReaderKeeps.append (l : LinkId) (s : State) (c : List Byte) : ReaderKeeps l s (s.append c) := by
  constructor
  case grows => exact Nat.le_add_right _ _
  case before => exact fun a ha => Buffer.get_putAll_outside c s.rxb (.inl ha)
  case behind => exact fun a ha => Buffer.get_putAll_outside c s.rxb (.inr ha)
  all_goals first | rfl | exact fun _ _ => rfl | exact id

theorem ReaderKeeps.setCrc (l : LinkId) (s : State) (v : Word16) : ReaderKeeps l s (s.setCrc v) := by
  constructor <;> first | rfl | exact Nat.le_refl _ | exact fun _ _ => rfl | exact id

theorem ReaderKeeps.logEvent (l : LinkId) (s : State) (e : LogEvent) : ReaderKeeps l s (s.logEvent e) := by
  constructor <;> first | rfl | exact Nat.le_refl _ | exact fun _ _ => rfl | exact id

theorem ReaderKeeps.iteration (l : LinkId) (cap : Nat) (s : State) (c : List Byte) :
    ReaderKeeps l s (iterationState l cap s c) :=
  (ReaderKeeps.receive l cap s).trans (ReaderKeeps.append l _ c)

theorem ReaderKeeps.rtuTests (l : LinkId) (exp : Expectation) (p : Bool) (s : State) :
    ReaderKeeps l s (rtuTests exp p s).2 := by
  rcases rtuTests_state exp p s with h | ⟨v, h⟩ | h | ⟨v, h⟩ <;> rw [h]
  · exact .refl l s
  · exact .setCrc l s v
  · exact .logEvent l s _
  · exact (ReaderKeeps.setCrc l s v).trans (.logEvent l _ _)

theorem ReaderKeeps.mbapVerdict (l : LinkId) (s : State) : ReaderKeeps l s (mbapVerdict s).2 := .refl l s

theorem ReaderKeeps.rtuVerdict (l : LinkId) (exp : Expectation) (s : State) : ReaderKeeps l s (rtuVerdict l exp s).2 :=
  (ReaderKeeps.pending l s).trans (.rtuTests l exp _ _)

/-- The frame of the reader loop. -/
theorem readLoop_keeps {l : LinkId} {cap : Nat} {verdict : State → Option ReadOutcome × State}
    (hv : ∀ u, ReaderKeeps l u (verdict u).2) (room : Nat) (s : State) :
    ReaderKeeps l s (readLoop l cap verdict room s).2 := by
  refine readLoop_induct (P := ReaderKeeps l s) (Q := fun _ t => ReaderKeeps l s t)
    (fun u h _ => h.trans (.sample l u)) (fun u h => h.trans (.sample l u)) (fun u h => h.trans (.receive l cap u))
    (fun u h => h.trans (.receive l cap u)) (fun u _ h => h.trans (.receive l cap u)) ?_ ?_ room s (.refl l s)
  · intro u b bs o w h _ _ hw
    have := hv (iterationState l cap u (b :: bs))
    rw [hw] at this
    exact (h.trans (.iteration l cap u _)).trans this
  · intro u b bs w h _ _ hw
    have := hv (iterationState l cap u (b :: bs))
    rw [hw] at this
    exact (h.trans (.iteration l cap u _)).trans this

/-- What RXB and RXLEN look like inside a reader: the count is in range, and every byte below it holds a value. -/
structure ReaderFill (cap : Nat) (s : State) : Prop where
  le : s.rxlen ≤ cap
  held : ∃ bs, Buffer.slice s.rxb 0 s.rxlen = some bs

theorem ReaderFill.iteration {l : LinkId} {cap : Nat} {s : State} {b : Byte} {bs : List Byte}
    (h : ReaderFill cap s) (hn : s.rxlen ≠ cap) (hd : s.env.afterSample.recvAnswer l (cap - s.rxlen) = .data b bs) :
    ReaderFill cap (iterationState l cap s (b :: bs)) := by
  have hle := h.le
  have hk : (b :: bs).length ≤ cap - s.rxlen := RecvAnswer.cut_data hd (by omega)
  obtain ⟨frame, hf⟩ := h.held
  exact ⟨by simp only [iterationState, State.append_rxlen, State.setEnv_rxlen]; omega,
    ⟨frame ++ (b :: bs), Buffer.slice_append hf _⟩⟩

/-- A verdict that leaves RXB and RXLEN alone. -/
def KeepsFrame (verdict : State → Option ReadOutcome × State) : Prop :=
  ∀ u, (verdict u).2.rxlen = u.rxlen ∧ (verdict u).2.rxb = u.rxb

theorem mbapVerdict_keepsFrame : KeepsFrame mbapVerdict := fun _ => ⟨rfl, rfl⟩

theorem rtuVerdict_keepsFrame (l : LinkId) (exp : Expectation) : KeepsFrame (rtuVerdict l exp) := fun u => by
  unfold rtuVerdict
  rcases rtuTests_state exp (u.env.pendingAnswer l) (u.setEnv (u.env.afterPending l)) with h | ⟨v, h⟩ | h | ⟨v, h⟩ <;>
    rw [h] <;> exact ⟨rfl, rfl⟩

/-- The reader loop keeps RXLEN in range and RXB filled below it, and its success is the verdict's on the state it returns. -/
theorem readLoop_fill {l : LinkId} {cap : Nat} {verdict : State → Option ReadOutcome × State}
    (hv : KeepsFrame verdict) (room : Nat) (s : State) (h : ReaderFill cap s) :
    ReaderFill cap (readLoop l cap verdict room s).2 ∧
      ∀ n, (readLoop l cap verdict room s).1 = .success n →
        ∃ u, u.rxlen = (readLoop l cap verdict room s).2.rxlen ∧ 1 ≤ u.rxlen ∧
          u.rxb = (readLoop l cap verdict room s).2.rxb ∧ ReaderFill cap u ∧
          verdict u = (some (.success n), (readLoop l cap verdict room s).2) := by
  refine readLoop_induct (P := ReaderFill cap)
    (Q := fun o t => ReaderFill cap t ∧ ∀ n, o = .success n →
      ∃ u, u.rxlen = t.rxlen ∧ 1 ≤ u.rxlen ∧ u.rxb = t.rxb ∧ ReaderFill cap u ∧ verdict u = (some (.success n), t))
    ?_ ?_ ?_ ?_ ?_ ?_ ?_ room s h
  · exact fun u hu _ => ⟨⟨hu.le, hu.held⟩, fun n hn => by cases hn⟩
  · exact fun u hu => ⟨⟨hu.le, hu.held⟩, fun n hn => by cases hn⟩
  · exact fun u hu => ⟨⟨hu.le, hu.held⟩, fun n hn => by cases hn⟩
  · exact fun u hu => ⟨⟨hu.le, hu.held⟩, fun n hn => by cases hn⟩
  · exact fun u k hu => ⟨⟨hu.le, hu.held⟩, fun n hn => by cases hn⟩
  · intro u b bs o w hu hne hd hw
    have hi := hu.iteration hne hd
    have hk := hv (iterationState l cap u (b :: bs))
    rw [hw] at hk
    refine ⟨⟨hk.1 ▸ hi.le, by rw [hk.1, hk.2]; exact hi.held⟩, fun n hn => ?_⟩
    subst hn
    exact ⟨_, hk.1.symm, by simp only [iterationState, State.append_rxlen, List.length_cons]; omega, hk.2.symm, hi, hw⟩
  · intro u b bs w hu hne hd hw
    have hi := hu.iteration hne hd
    have hk := hv (iterationState l cap u (b :: bs))
    rw [hw] at hk
    exact ⟨hk.1 ▸ hi.le, by rw [hk.1, hk.2]; exact hi.held⟩

/-- The start of an invocation is filled: nothing is accumulated yet. -/
theorem readerFill_start (cap : Nat) (s : State) : ReaderFill cap (s.setRxlen 0) := ⟨Nat.zero_le _, ⟨[], rfl⟩⟩

/-- The reader loop keeps RXB canonical: every append lies inside the capacity. -/
theorem readLoop_wf {l : LinkId} {cap : Nat} {verdict : State → Option ReadOutcome × State} (hc : cap ≤ Config.cap)
    (hv : KeepsFrame verdict) (room : Nat) (s : State) (h : ReaderFill cap s) (hw : Buffer.wf Config.cap s.rxb) :
    Buffer.wf Config.cap (readLoop l cap verdict room s).2.rxb := by
  have step : ∀ u b bs, (ReaderFill cap u ∧ Buffer.wf Config.cap u.rxb) → u.rxlen ≠ cap →
      u.env.afterSample.recvAnswer l (cap - u.rxlen) = .data b bs →
      ReaderFill cap (iterationState l cap u (b :: bs)) ∧
        Buffer.wf Config.cap (iterationState l cap u (b :: bs)).rxb := by
    intro u b bs hu hne hd
    have hi := hu.1.iteration hne hd
    refine ⟨hi, Buffer.putAll_wf _ hu.2 ?_⟩
    have := hi.le
    simp only [iterationState, State.append_rxlen] at this
    exact Nat.le_trans this hc
  refine readLoop_induct (P := fun u => ReaderFill cap u ∧ Buffer.wf Config.cap u.rxb)
    (Q := fun _ t => Buffer.wf Config.cap t.rxb)
    (fun u hu _ => hu.2) (fun u hu => hu.2) (fun u hu => hu.2) (fun u hu => hu.2) (fun u _ hu => hu.2) ?_ ?_ room s ⟨h, hw⟩
  · intro u b bs o w hu hne hd hverd
    have hk := hv (iterationState l cap u (b :: bs))
    rw [hverd] at hk
    rw [hk.2]
    exact (step u b bs hu hne hd).2
  · intro u b bs w hu hne hd hverd
    have hk := hv (iterationState l cap u (b :: bs))
    rw [hverd] at hk
    obtain ⟨h1, h2⟩ := step u b bs hu hne hd
    exact ⟨⟨hk.1 ▸ h1.le, by rw [hk.1, hk.2]; exact h1.held⟩, by rw [hk.2]; exact h2⟩

end Sys2Proof.Machine
end

