-- ==== Sys2Proof/Laws/Complete.lean ====
section
/-! SUPPORT. When the partial operations answer: conditions on the state and the operands alone. -/

namespace Sys2Proof.Machine

/-- The bytes a slice holds are held one by one. -/
theorem Buffer.held_of_slice {buf : Buffer} {n : Nat} {bs : List Byte} (h : Buffer.slice buf 0 n = some bs) {i : Nat}
    (hi : i < n) : (Buffer.get buf i).isSome := by
  have hg := Buffer.slice_get h hi
  have hl := Buffer.slice_length h
  rw [Nat.zero_add] at hg
  rw [← hg, List.getElem?_eq_getElem (by omega)]
  rfl

theorem stage_of_length {frame : List Byte} (s : State) (h : frame.length ≤ Config.txCap) :
    stage frame s = .next { s with txb := Buffer.putAll 0 frame s.txb, txlen := frame.length } := by
  simp only [stage, if_pos h]

theorem flushSlave_of_open {s : State} (h : (s.env.link .S).isOpen = true) :
    flushSlave s = .next (s.setEnv (s.env.afterDiscard .S)) := needOpen_of_open h

theorem sendStaged_of_held {l : LinkId} {s : State} {frame : List Byte} (h1 : 1 ≤ s.txlen) (h2 : s.txlen ≤ Config.txCap)
    (ho : (s.env.link l).isOpen = true) (hf : Buffer.slice s.txb 0 s.txlen = some frame) :
    sendStaged l s = .next (recordSend l frame s) := by
  simp only [sendStaged, h1, h2, and_self, if_true, needOpen_of_open ho, txRead, hf, andThen_next]

theorem t2rReq_of_held {n : Nat} {s : State} {frame : List Byte} (h1 : 7 ≤ n) (h2 : n ≤ Config.cap) (h3 : n ≤ s.rxlen)
    (hf : Buffer.slice s.rxb 0 n = some frame) : ∃ t, t2rReq n s = .next t := by
  have hl := Buffer.slice_length hf
  have hs := stage_of_length (frame := rtuFrame (frame.drop 6))
    ((s.saveIds (be16At 0 frame) (be16At 2 frame)).setCrc (crc16 (frame.drop 6)))
    (by simp only [rtuFrame_length, List.length_drop]; simp only [Config.cap] at h2; simp only [Config.txCap]; omega)
  simp only [t2rReq, mbapLength, h1, h2, and_self, if_true, rxRead_of_slice (off := 0) (by omega) hf, andThen_next, hs]
  exact ⟨_, rfl⟩

theorem t2rRsp_of_held {m : Nat} {s : State} {body : List Byte} (h1 : 3 ≤ m) (h2 : m ≤ Config.cap) (h3 : m - 2 ≤ s.rxlen)
    (hf : Buffer.slice s.rxb 0 (m - 2) = some body) :
    ∃ t, t2rRsp m s = .next t := by
  have hl := Buffer.slice_length hf
  have hs := stage_of_length (frame := mbapHeader s.savedTid s.savedPid (m - 2) ++ body) s
    (by simp only [List.length_append, mbapHeader_length]; simp only [Config.cap] at h2; simp only [Config.txCap]; omega)
  simp only [t2rRsp, rtuLength, show ¬m < 3 by omega, h2, if_true, if_false,
    rxRead_of_slice (off := 0) (n := m - 2) (by omega) hf, andThen_next, hs]
  exact ⟨_, rfl⟩

theorem r2tReq_of_held {n : Nat} {s : State} {body : List Byte} (h1 : 3 ≤ n) (h2 : n ≤ Config.cap) (h3 : n - 2 ≤ s.rxlen)
    (hf : Buffer.slice s.rxb 0 (n - 2) = some body) : ∃ t, r2tReq n s = .next t := by
  have hl := Buffer.slice_length hf
  have hs := stage_of_length (frame := mbapHeader s.txid 0#16 (n - 2) ++ body) (s.setSentTid s.txid)
    (by simp only [List.length_append, mbapHeader_length]; simp only [Config.cap] at h2; simp only [Config.txCap]; omega)
  simp only [r2tReq, rtuLength, show ¬n < 3 by omega, h2, if_true, if_false,
    rxRead_of_slice (off := 0) (n := n - 2) (by omega) hf, andThen_next, hs]
  exact ⟨_, rfl⟩

theorem r2tRsp_of_held {m : Nat} {s : State} {frame : List Byte} (h1 : 7 ≤ m) (h2 : m ≤ Config.cap) (h3 : m ≤ s.rxlen)
    (hf : Buffer.slice s.rxb 0 m = some frame) : ∃ t, r2tRsp m s = .next t := by
  have hl := Buffer.slice_length hf
  have hs := stage_of_length (frame := rtuFrame (frame.drop 6))
    ((checkTid frame s.sentTid s).setCrc (crc16 (frame.drop 6)))
    (by simp only [rtuFrame_length, List.length_drop]; simp only [Config.cap] at h2; simp only [Config.txCap]; omega)
  simp only [r2tRsp, mbapLength, h1, h2, and_self, if_true, rxRead_of_slice (off := 0) (by omega) hf, andThen_next,
    hs]
  exact ⟨_, rfl⟩

end Sys2Proof.Machine
end

