-- ==== Sys2Proof/Laws/Crc.lean ====
section
/-! SUPPORT. The CRC engine: a sequence continued, and the check read on the last two bytes. -/

namespace Sys2Proof.Machine

@[simp] theorem crc16_nil : crc16 [] = 0xFFFF#16 := rfl

/-- The engine continues from where it stands. -/
theorem crc16_append (xs ys : List Byte) : crc16 (xs ++ ys) = ys.foldl crcByte (crc16 xs) := by
  simp [crc16]

/-- The check on a frame that ends in two bytes: they are the CRC of what is before them, low byte first. -/
theorem crcMatches_pair (body : List Byte) (lo hi : Byte) :
    crcMatches (body ++ [lo, hi]) = true ↔ crc16 body = hi ++ lo := by
  have hd : (body ++ [lo, hi]).drop ((body ++ [lo, hi]).length - 2) = [lo, hi] := by simp
  have ht : (body ++ [lo, hi]).take ((body ++ [lo, hi]).length - 2) = body := by simp
  simp only [crcMatches, crcCovered, trailer, hd, ht, decide_eq_true_eq]
  rw [show [lo, hi].reverse = [hi, lo] from rfl, be16_pair]

/-- A sequence of at least two bytes ends in two bytes. -/
theorem exists_last_pair (bs : List Byte) (h : 2 ≤ bs.length) : ∃ body lo hi, bs = body ++ [lo, hi] := by
  refine ⟨bs.take (bs.length - 2), bs[bs.length - 2], bs[bs.length - 1], ?_⟩
  have hd : bs.drop (bs.length - 2) = [bs[bs.length - 2], bs[bs.length - 1]] := by
    rw [List.drop_eq_getElem_cons (by omega), List.drop_eq_getElem_cons (by omega), List.drop_of_length_le (by omega)]
    congr
    omega
  rw [← hd, List.take_append_drop]

end Sys2Proof.Machine
end

