-- ==== Sys2Proof/Laws/PerInstr.lean ====
section
/-! SUPPORT. The statements made instruction by instruction. `TableRow`: the command of a well-formed instruction is taken by the
row of the opcode table that has the instruction's mnemonic (30_encoding R85, R88). -/

namespace Sys2Proof.Laws.TableRow

def Statement (i : Instr) : Prop := i.wf = true → (rowOf (encode i)).map TableRow.mnemonic = some i.mnemonic

/-- The row depends on the format and the select code alone. -/
theorem of_code (m : String) (f : Format) (code : Byte) (a : Operands)
    (h : (rowOf ⟨f, code, Operands.blank⟩).map TableRow.mnemonic = some m) :
    (rowOf ⟨f, code, a⟩).map TableRow.mnemonic = some m := h

/-- A function code with no row of its own falls through to the default row. -/
theorem default_row : ∀ fc : Byte, tabledFcs.contains fc = false →
    (rowOf ⟨.fc, fc, Operands.blank⟩).map TableRow.mnemonic = some "EST.OTHER" := by decide +kernel

theorem crc16 (bytes : List Byte) : Statement (.crc16 bytes) :=
  fun _ => of_code "CRC16" .cmd 0x01#8 _ (by decide)
theorem be16 (bytes : List Byte) (off : Nat) : Statement (.be16 bytes off) :=
  fun _ => of_code "BE16" .cmd 0x02#8 _ (by decide)
theorem be32 (bytes : List Byte) (off : Nat) : Statement (.be32 bytes off) :=
  fun _ => of_code "BE32" .cmd 0x03#8 _ (by decide)
theorem be64 (bytes : List Byte) (off : Nat) : Statement (.be64 bytes off) :=
  fun _ => of_code "BE64" .cmd 0x04#8 _ (by decide)
theorem rdmbap (l : LinkId) (cap : Nat) : Statement (.rdmbap l cap) :=
  fun _ => of_code "RDMBAP" .cmd 0x05#8 _ (by decide)
theorem rdrtu (l : LinkId) (cap : Nat) (exp : Expectation) : Statement (.rdrtu l cap exp) :=
  fun _ => of_code "RDRTU" .cmd 0x06#8 _ (by decide)
theorem est (fc : Byte) (q : Option Word16) : Statement (.est fc q) :=
  fun _ => of_code "EST" .cmd 0x07#8 _ (by decide)
theorem t2rReq (n : Nat) : Statement (.t2rReq n) :=
  fun _ => of_code "T2R.REQ" .cmd 0x08#8 _ (by decide)
theorem t2rRsp (m : Nat) : Statement (.t2rRsp m) :=
  fun _ => of_code "T2R.RSP" .cmd 0x09#8 _ (by decide)
theorem r2tReq (n : Nat) : Statement (.r2tReq n) :=
  fun _ => of_code "R2T.REQ" .cmd 0x0A#8 _ (by decide)
theorem r2tRsp (m : Nat) : Statement (.r2tRsp m) :=
  fun _ => of_code "R2T.RSP" .cmd 0x0B#8 _ (by decide)
theorem flush : Statement .flush :=
  fun _ => of_code "FLUSH" .cmd 0x0C#8 _ (by decide)
theorem send (l : LinkId) : Statement (.send l) :=
  fun _ => of_code "SEND" .cmd 0x0D#8 _ (by decide)
theorem teardown (o : FatalOutcome) : Statement (.teardown o) :=
  fun _ => of_code "TEARDOWN" .cmd 0x0E#8 _ (by decide)
theorem cycT2r : Statement .cycT2r :=
  fun _ => of_code "CYC.T2R" .cmd 0x0F#8 _ (by decide)
theorem cycR2t : Statement .cycR2t :=
  fun _ => of_code "CYC.R2T" .cmd 0x10#8 _ (by decide)
theorem estFc01 (q : Option Word16) : Statement (.estFc01 q) :=
  fun _ => of_code "EST.FC01" .fc 0x01#8 _ (by decide)
theorem estFc02 (q : Option Word16) : Statement (.estFc02 q) :=
  fun _ => of_code "EST.FC02" .fc 0x02#8 _ (by decide)
theorem estFc03 (q : Option Word16) : Statement (.estFc03 q) :=
  fun _ => of_code "EST.FC03" .fc 0x03#8 _ (by decide)
theorem estFc04 (q : Option Word16) : Statement (.estFc04 q) :=
  fun _ => of_code "EST.FC04" .fc 0x04#8 _ (by decide)
theorem estFc05 (q : Option Word16) : Statement (.estFc05 q) :=
  fun _ => of_code "EST.FC05" .fc 0x05#8 _ (by decide)
theorem estFc06 (q : Option Word16) : Statement (.estFc06 q) :=
  fun _ => of_code "EST.FC06" .fc 0x06#8 _ (by decide)
theorem estFc0F (q : Option Word16) : Statement (.estFc0F q) :=
  fun _ => of_code "EST.FC0F" .fc 0x0F#8 _ (by decide)
theorem estFc10 (q : Option Word16) : Statement (.estFc10 q) :=
  fun _ => of_code "EST.FC10" .fc 0x10#8 _ (by decide)
theorem estOther (fc : Byte) (q : Option Word16) : Statement (.estOther fc q) := fun h =>
  of_code "EST.OTHER" .fc fc _ (default_row fc (by simpa [Instr.wf] using h))

end Sys2Proof.Laws.TableRow
end

