-- ==== Sys2Proof/Tests/Slice0.lean ====
section
/-! SUPPORT. The model's own tests. Expected values are those of spec/95_test_vectors.md (named by their ids there) or written
out from the encoding tables of spec/30_encoding.md; after them, for every statement with hypotheses, a witness that meets them
all together. -/

namespace Sys2Proof.Tests

set_option Elab.async false

open Sys2Proof.Machine Sys2Proof.Spec

/-! ### Helpers -/

def nextOf (o : Out) : Option State :=
  match o with
  | .next s => some s
  | .fault _ => none
  | .refused _ => none

/-- The state an instruction leaves, the state itself where it does not answer one. -/
def after (i : Instr) (s : State) : State := (nextOf (exec i s)).getD s

theorem next_after {i : Instr} {s : State} (h : (nextOf (exec i s)).isSome = true) : exec i s = .next (after i s) := by
  unfold after
  revert h
  cases exec i s <;> simp [nextOf]

def stepped (s : State) : State := (nextOf (step s)).getD s

theorem next_stepped {s : State} (h : (nextOf (step s)).isSome = true) : step s = .next (stepped s) := by
  unfold stepped
  revert h
  cases step s <;> simp [nextOf]

def data (bs : List Byte) : RecvAnswer := .data (bs.headD 0#8) bs.tail

/-- A link that answers these reads in turn, with nothing pending after any, and takes every frame. -/
def linkOf (answers : List RecvAnswer) : Link :=
  { Link.fresh with answers := answers, pendings := [false, false], sends := [.ok], discards := [0] }

/-- Reset for a direction, with these two links, no cancellation for some samples, and an outcome that can be evaluated (the one
at reset is a free value, log 5). -/
def stateOf (d : Dir) (m s : Link) : State :=
  { State.resetFor d with outcome := .timeout, env := { Env.fresh with master := m, slave := s, cancels := [false, false, false, false] } }

def at_ (c : CState) (s : State) : State := { s with cstate := c }

/-- A frame accumulated in RXB. -/
def holding (frame : List Byte) (s : State) : State :=
  { s with rxb := Buffer.putAll 0 frame [], rxlen := frame.length }

/-- A frame staged in TXB. -/
def staging (frame : List Byte) (s : State) : State :=
  { s with txb := Buffer.putAll 0 frame [], txlen := frame.length }

/-- The registers a response needs, written. -/
def serving (s : State) : State :=
  { s with
    savedTid := 7#16
    savedPid := 0#16
    sentTid := 1#16
    explen := .known 6#18
    written := { s.written with savedTid := true, savedPid := true, sentTid := true, explen := true } }

def staged (s : State) : Option (List Byte) := Buffer.slice s.txb 0 s.txlen

/-- `Inv`, evaluated. -/
def invCheck (s : State) : Bool :=
  decide (s.rxlen ≤ Config.cap ∧ s.txlen ≤ Config.txCap ∧ Buffer.wf Config.cap s.rxb ∧ Buffer.wf Config.txCap s.txb ∧
    (∀ i < s.rxlen, (Buffer.get s.rxb i).isSome) ∧ (∀ i < s.txlen, (Buffer.get s.txb i).isSome)) &&
  (match s.outcome with
    | .success n => decide (n ≤ Config.cap)
    | .timeout => true
    | .fatal _ => true) &&
  decide (s.warn.getLsbD 0 = s.log.contains .wCrc ∧ s.warn.getLsbD 1 = s.log.contains .wTid ∧
    s.env.master.isOpen = decide (s.cstate ≠ .closed) ∧ s.env.slave.isOpen = decide (s.cstate ≠ .closed) ∧
    (midExchange s.cstate = true → 1 ≤ s.txlen) ∧
    (s.dir = .t2r → midExchange s.cstate = true →
      s.written.savedTid = true ∧ s.written.savedPid = true ∧ s.written.explen = true) ∧
    (s.dir = .r2t → midExchange s.cstate = true → s.written.sentTid = true))

theorem inv_of_check {s : State} (h : invCheck s = true) : Inv s := by
  simp only [invCheck, Bool.and_eq_true, decide_eq_true_eq] at h
  obtain ⟨⟨⟨a1, a2, a3, a4, a5, a6⟩, a7⟩, a8, a9, a10, a11, a12, a13, a14⟩ := h
  refine ⟨a1, a2, a3, a4, a5, a6, fun n hn => ?_, a8, a9, a10, a11, a12, a13, a14⟩
  rw [hn] at a7
  simpa using a7

/-- Request and response of S13, and a fifth source of bytes: the R2T request of V-RU-1 and its MBAP form. -/
def mbapRequest : List Byte := [0x00#8, 0x07#8, 0x00#8, 0x00#8, 0x00#8, 0x06#8, 0x01#8, 0x03#8, 0x00#8, 0x00#8, 0x00#8, 0x02#8]
def rtuRequest : List Byte := [0x01#8, 0x03#8, 0x00#8, 0x00#8, 0x00#8, 0x02#8, 0xC4#8, 0x0B#8]
def rtuResponse : List Byte := [0x01#8, 0x03#8, 0x04#8, 0x00#8, 0x0A#8, 0x00#8, 0x14#8, 0xDA#8, 0x3E#8]
def mbapResponse : List Byte :=
  [0x00#8, 0x07#8, 0x00#8, 0x00#8, 0x00#8, 0x07#8, 0x01#8, 0x03#8, 0x04#8, 0x00#8, 0x0A#8, 0x00#8, 0x14#8]
def rtuWrite : List Byte := [0x11#8, 0x06#8, 0x00#8, 0x01#8, 0x00#8, 0x03#8, 0x9A#8, 0x9B#8]
def mbapWrite : List Byte := [0x00#8, 0x01#8, 0x00#8, 0x00#8, 0x00#8, 0x06#8, 0x11#8, 0x06#8, 0x00#8, 0x01#8, 0x00#8, 0x03#8]

/-! ### WellFormed: an ill-formed term for each check (41 R118; 42 R120; 43 R135; 45 R172, R176; 46 R192, R199; 44 R164) -/

theorem test_wf_refuses :
    (Instr.be16 [0#8, 1#8] 1).wf = false ∧ (Instr.be32 [0#8, 1#8, 2#8] 0).wf = false ∧
    (Instr.be64 (List.replicate 8 0#8) 1).wf = false ∧ (Instr.rdmbap .M 261).wf = false ∧
    (Instr.rdrtu .S 261 .unknown).wf = false ∧ (Instr.t2rReq 6).wf = false ∧ (Instr.t2rReq 261).wf = false ∧
    (Instr.t2rRsp 2).wf = false ∧ (Instr.t2rRsp 261).wf = false ∧ (Instr.r2tReq 2).wf = false ∧
    (Instr.r2tReq 261).wf = false ∧ (Instr.r2tRsp 6).wf = false ∧ (Instr.r2tRsp 261).wf = false ∧
    (Instr.estOther 0x01#8 none).wf = false ∧ (Instr.estOther 0x10#8 none).wf = false := by decide

/-! ### Decode: every constructor's select code, written out from 30_encoding R85 and R88 -/

theorem test_decode_cmd (a : Operands) :
    decode ⟨.cmd, 0b00000001#8, a⟩ = .ok (.crc16 a.bytes) ∧ decode ⟨.cmd, 0b00000010#8, a⟩ = .ok (.be16 a.bytes a.off) ∧
    decode ⟨.cmd, 0b00000011#8, a⟩ = .ok (.be32 a.bytes a.off) ∧ decode ⟨.cmd, 0b00000100#8, a⟩ = .ok (.be64 a.bytes a.off) ∧
    decode ⟨.cmd, 0b00000101#8, a⟩ = .ok (.rdmbap a.link a.cap) ∧
    decode ⟨.cmd, 0b00000110#8, a⟩ = .ok (.rdrtu a.link a.cap a.exp) ∧
    decode ⟨.cmd, 0b00000111#8, a⟩ = .ok (.est a.fc a.q) ∧ decode ⟨.cmd, 0b00001000#8, a⟩ = .ok (.t2rReq a.len) ∧
    decode ⟨.cmd, 0b00001001#8, a⟩ = .ok (.t2rRsp a.len) ∧ decode ⟨.cmd, 0b00001010#8, a⟩ = .ok (.r2tReq a.len) ∧
    decode ⟨.cmd, 0b00001011#8, a⟩ = .ok (.r2tRsp a.len) ∧ decode ⟨.cmd, 0b00001100#8, a⟩ = .ok .flush ∧
    decode ⟨.cmd, 0b00001101#8, a⟩ = .ok (.send a.link) ∧ decode ⟨.cmd, 0b00001110#8, a⟩ = .ok (.teardown a.fatal) ∧
    decode ⟨.cmd, 0b00001111#8, a⟩ = .ok .cycT2r ∧ decode ⟨.cmd, 0b00010000#8, a⟩ = .ok .cycR2t :=
  ⟨rfl, rfl, rfl, rfl, rfl, rfl, rfl, rfl, rfl, rfl, rfl, rfl, rfl, rfl, rfl, rfl⟩

theorem test_decode_fc (a : Operands) :
    decode ⟨.fc, 0b00000001#8, a⟩ = .ok (.estFc01 a.q) ∧ decode ⟨.fc, 0b00000010#8, a⟩ = .ok (.estFc02 a.q) ∧
    decode ⟨.fc, 0b00000011#8, a⟩ = .ok (.estFc03 a.q) ∧ decode ⟨.fc, 0b00000100#8, a⟩ = .ok (.estFc04 a.q) ∧
    decode ⟨.fc, 0b00000101#8, a⟩ = .ok (.estFc05 a.q) ∧ decode ⟨.fc, 0b00000110#8, a⟩ = .ok (.estFc06 a.q) ∧
    decode ⟨.fc, 0b00001111#8, a⟩ = .ok (.estFc0F a.q) ∧ decode ⟨.fc, 0b00010000#8, a⟩ = .ok (.estFc10 a.q) ∧
    decode ⟨.fc, 0b10011001#8, a⟩ = .ok (.estOther 0x99#8 a.q) :=
  ⟨rfl, rfl, rfl, rfl, rfl, rfl, rfl, rfl, rfl⟩

/-- No two rows of one format but the default row share a code, and the table word of each CMD row decodes to its instruction. -/
theorem test_rows :
    (cmdRows ++ fcRows.dropLast).Pairwise (fun r t => r.format = t.format → r.value ≠ t.value) ∧
    (∀ r ∈ cmdRows, (decodeTableWord 8 r.value.toNat).map Instr.mnemonic = some r.mnemonic) := by decide +kernel

theorem test_words_with_high_bits_are_no_row : decodeTableWord 16 0x0105 = none ∧ decodeTableWord 8 0 = none := by decide

/-! ### CRC Engine and Field Reader -/

/-- V-CRC-8, the corrected reference vector. -/
theorem test_crc16 : (after (.crc16 [0x01#8, 0x03#8, 0x00#8, 0x00#8, 0x00#8, 0x0A#8]) State.reset).crc = 0xCDC5#16 := by
  decide +kernel

/-- V-CRC-7, the published check value. -/
theorem test_crc16_check_value :
    crc16 [0x31#8, 0x32#8, 0x33#8, 0x34#8, 0x35#8, 0x36#8, 0x37#8, 0x38#8, 0x39#8] = 0x4B37#16 := by decide +kernel

/-- The passing and failing frames of section 2.1. -/
theorem test_crc_check :
    crcMatches [0x01#8, 0x83#8, 0x02#8, 0xC0#8, 0xF1#8] = true ∧ crcMatches [0x01#8, 0x83#8, 0x02#8, 0xF1#8, 0xC0#8] = false ∧
    crcMatches [0xFF#8, 0xFF#8] = true ∧ crcMatches [0x00#8, 0x00#8] = false := by decide +kernel

/-- Section 2.2. -/
theorem test_be_fields :
    (after (.be16 [0x12#8, 0x34#8, 0x56#8] 1) State.reset).result = .word16 0x3456#16 ∧
    (after (.be32 [0x12#8, 0x34#8, 0x56#8, 0x78#8, 0x9A#8] 1) State.reset).result = .word32 0x3456789A#32 ∧
    (after (.be64 [0x12#8, 0x34#8, 0x56#8, 0x78#8, 0x9A#8, 0xBC#8, 0xDE#8, 0xF0#8] 0) State.reset).result =
      .word64 0x123456789ABCDEF0#64 := by decide +kernel

theorem test_be64_beyond : nextOf (exec (.be64 (List.replicate 8 0#8) 1) State.reset) = none := by decide +kernel

/-! ### Readers -/

def readsMaster (i : Instr) (answers : List RecvAnswer) : State := after i (stateOf .t2r (linkOf answers) Link.fresh)

/-- V-MB-1, and the OUTCOME word given after the table. -/
theorem test_rdmbap_success :
    (readsMaster (.rdmbap .M 260) [data mbapRequest]).outcome = .success 12 ∧
    ReadOutcome.bits (readsMaster (.rdmbap .M 260) [data mbapRequest]).outcome = 0x0300#16 := by decide +kernel

/-- V-MB-7: length field 0; six bytes are no success, the seventh is too much. -/
theorem test_rdmbap_length_zero :
    (readsMaster (.rdmbap .M 260) [data [0x00#8, 0x01#8, 0x00#8, 0x00#8, 0x00#8, 0x00#8], data [0x11#8]]).outcome =
      .fatal .tooMuchData := by decide +kernel

/-- V-RK-13: five bytes that are the exact length fail with a bad CRC. -/
theorem test_rdrtu_exact_before_shortcut :
    (readsMaster (.rdrtu .M 260 (.known 2#18)) [data [0x01#8, 0x81#8, 0x01#8, 0x81#8, 0x91#8]]).outcome =
      .fatal .crcMismatch := by decide +kernel

/-- V-RU-4: a bad CRC is logged and the frame returned. -/
theorem test_rdrtu_unknown_bad_crc :
    (readsMaster (.rdrtu .M 260 .unknown) [data [0x11#8, 0x06#8, 0x00#8, 0x01#8, 0x00#8, 0x03#8, 0x9A#8, 0x9C#8]]).outcome =
      .success 8 ∧
    (readsMaster (.rdrtu .M 260 .unknown) [data [0x11#8, 0x06#8, 0x00#8, 0x01#8, 0x00#8, 0x03#8, 0x9A#8, 0x9C#8]]).log =
      [.wCrc] := by decide +kernel

/-- The OUTCOME words of section 2.3: RawError(reset), RawError(network-down), and the fields of R25 for Timeout. -/
theorem test_outcome_words :
    ReadOutcome.bits (.fatal (.rawError .reset)) = 0x0007#16 ∧ ReadOutcome.bits (.fatal (.rawError .networkDown)) = 0x0017#16 ∧
    ReadOutcome.bits .timeout = 0x0002#16 ∧ ReadOutcome.bits (.success 260) = 0x4100#16 := by decide

/-! ### Estimator -/

/-- V-EST-17 as 19 bits, V-EST-22. -/
theorem test_est :
    (after (.est 0x03#8 (some 65535#16)) State.reset).result = .expectation (.known 131072#18) ∧
    Expectation.bits 0#18 (.known 131072#18) = 0x60000#19 ∧
    (after (.est 0x00#8 (some 5#16)) State.reset).result = .expectation .unknown := by decide +kernel

/-- V-EST-11, V-EST-9, V-EST-1, V-EST-14, V-EST-18, V-EST-3, V-EST-19, V-EST-20, V-EST-25, one row each. -/
theorem test_est_rows :
    (after (.estFc01 (some 65535#16)) State.reset).result = .expectation (.known 8194#18) ∧
    (after (.estFc02 (some 17#16)) State.reset).result = .expectation (.known 5#18) ∧
    (after (.estFc03 (some 10#16)) State.reset).result = .expectation (.known 22#18) ∧
    (after (.estFc04 (some 1#16)) State.reset).result = .expectation (.known 4#18) ∧
    (after (.estFc05 (some 0xFF00#16)) State.reset).result = .expectation (.known 5#18) ∧
    (after (.estFc06 none) State.reset).result = .expectation (.known 5#18) ∧
    (after (.estFc0F (some 10#16)) State.reset).result = .expectation (.known 5#18) ∧
    (after (.estFc10 (some 2#16)) State.reset).result = .expectation (.known 5#18) ∧
    (after (.estOther 0x83#8 (some 2#16)) State.reset).result = .expectation .unknown := by decide +kernel

/-! ### Converters -/

/-- V-TQ-7: the protocol id is saved, not checked. -/
theorem test_t2rReq :
    staged (after (.t2rReq 12) (holding [0x00#8, 0x01#8, 0xAB#8, 0xCD#8, 0x00#8, 0x06#8, 0x01#8, 0x03#8, 0x00#8, 0x00#8,
      0x00#8, 0x02#8] State.reset)) = some rtuRequest ∧
    (after (.t2rReq 12) (holding mbapRequest State.reset)).savedTid = 7#16 ∧
    (after (.t2rReq 12) (holding mbapRequest State.reset)).explen = .known 6#18 := by decide +kernel

/-- V-TQ-4: a read code with a PDU of four bytes has no quantity. -/
theorem test_t2rReq_no_quantity :
    (after (.t2rReq 11) (holding [0x00#8, 0x01#8, 0x00#8, 0x00#8, 0x00#8, 0x05#8, 0x01#8, 0x03#8, 0x00#8, 0x00#8, 0x00#8]
      State.reset)).explen = .unknown := by decide +kernel

/-- V-TP-1. -/
theorem test_t2rRsp : staged (after (.t2rRsp 9) (holding rtuResponse (serving State.reset))) = some mbapResponse := by
  decide +kernel

/-- A response whose ids no rule has saved is converted all the same: length, unit id and PDU are those of V-TP-1. -/
theorem test_t2rRsp_unwritten :
    (staged (after (.t2rRsp 9) (holding rtuResponse State.reset))).map (List.drop 4) = some (mbapResponse.drop 4) := by
  decide +kernel

/-- V-RQ-4: TXID 0xFFFF is used and not changed. -/
theorem test_r2tReq :
    staged (after (.r2tReq 8) (holding rtuWrite { State.reset with txid := 0xFFFF#16 })) =
      some [0xFF#8, 0xFF#8, 0x00#8, 0x00#8, 0x00#8, 0x06#8, 0x11#8, 0x06#8, 0x00#8, 0x01#8, 0x00#8, 0x03#8] ∧
    (after (.r2tReq 8) (holding rtuWrite { State.reset with txid := 0xFFFF#16 })).txid = 0xFFFF#16 := by decide +kernel

/-- V-RP-2: a transaction id that does not match is logged and the frame converted all the same. -/
theorem test_r2tRsp :
    staged (after (.r2tRsp 12) (holding mbapWrite (State.setSentTid State.reset 2#16))) = some rtuWrite ∧
    (after (.r2tRsp 12) (holding mbapWrite (State.setSentTid State.reset 2#16))).log = [.wTid] := by decide +kernel

/-- Before SENT_TID is written the comparison is with its free value, and the operation completes. -/
theorem test_r2tRsp_unwritten : (nextOf (exec (.r2tRsp 12) (holding mbapWrite State.reset))).isSome = true := by decide +kernel

/-! ### Link operations and sequencers -/

/-- V-LK-1, with two bytes removed by the link. -/
theorem test_flush :
    (after .flush (stateOf .t2r Link.fresh { linkOf [data [0x3E#8, 0x00#8]] with discards := [2] })).env.slave.answers = [] := by
  decide +kernel

/-- V-LK-3. -/
theorem test_send : (after (.send .S) (staging rtuRequest (stateOf .t2r Link.fresh (linkOf [])))).env.slave.tx = rtuRequest := by
  decide +kernel

/-- V-LK-4. -/
theorem test_send_fault :
    ReadOutcome.bits (after (.send .S) (staging rtuRequest (stateOf .t2r Link.fresh
      { linkOf [] with sends := [.fault .notConnected 3] }))).outcome = 0x001F#16 := by decide +kernel

/-- V-LK-5. -/
theorem test_teardown :
    (after (.teardown .crcMismatch) State.reset).cstate = .closed ∧
    (after (.teardown .crcMismatch) State.reset).env.master.isOpen = false ∧
    (after (.teardown .crcMismatch) State.reset).env.slave.isOpen = false := by decide +kernel

/-- The state in which a T2R instance has read nothing yet and the master sends a request (P1). -/
def t2rReading : State := at_ .awaitMasterRequest (stateOf .t2r (linkOf [data mbapRequest]) (linkOf []))

/-- P1: the request is converted in the step that reads it. -/
theorem test_cycT2r :
    (after .cycT2r t2rReading).cstate = .forwardToSlave ∧ staged (after .cycT2r t2rReading) = some rtuRequest := by
  decide +kernel

/-- The state in which an R2T instance sends its request with the last transaction id (P6). -/
def r2tSending : State :=
  at_ .forwardToSlave (staging mbapWrite (serving { stateOf .r2t (linkOf []) (linkOf []) with txid := 0xFFFF#16 }))

/-- P6: the transaction id wraps. -/
theorem test_cycR2t :
    (after .cycR2t r2tSending).cstate = .awaitSlaveResponse ∧ (after .cycR2t r2tSending).txid = 0x0000#16 := by decide +kernel

/-! ### Witnesses: encoding, step and reset -/

theorem holds_putAll (bs : List Byte) : Holds (Buffer.putAll 0 bs []) bs := fun i hi => by
  simpa using Buffer.get_putAll_inside bs [] (Nat.zero_le i) (by simpa using hi)

theorem witness_DecodeOfEncodeIsTheInstruction :
    (Instr.be16 [0#8, 1#8] 0).wf = true ∧ (Instr.be32 (List.replicate 5 0#8) 1).wf = true ∧
    (Instr.be64 (List.replicate 8 0#8) 0).wf = true ∧ (Instr.rdmbap .S 260).wf = true ∧ (Instr.rdrtu .M 0 .unknown).wf = true ∧
    (Instr.t2rReq 7).wf = true ∧ (Instr.t2rRsp 260).wf = true ∧ (Instr.r2tReq 3).wf = true ∧ (Instr.r2tRsp 260).wf = true ∧
    (Instr.estOther 0x00#8 none).wf = true ∧ (Instr.estOther 0xFF#8 (some 1#16)).wf = true := by decide

theorem witness_SelectCodeDeterminedByInstruction :
    decode ⟨.cmd, 0x10#8, Operands.zeros⟩ = .ok .cycR2t ∧ decode ⟨.fc, 0xFF#8, Operands.zeros⟩ = .ok (.estOther 0xFF#8 none) :=
  ⟨rfl, rfl⟩

theorem witness_ReservedSelectCodesAreRefused (code : Byte) :
    ∃ s : State, s.cstate ≠ .closed ∧ s.issue = [⟨.cmd, code, Operands.zeros⟩] :=
  ⟨{ State.reset with issue := [⟨.cmd, code, Operands.zeros⟩] }, (by intro h; cases h), rfl⟩

theorem witness_reserved_codes :
    (0x00#8).toNat = 0 ∧ 0x11 ≤ (0x11#8).toNat ∧ 0x11 ≤ (0xFF#8).toNat ∧ State.reset.issue = [] := by decide

theorem witness_StepRunsTheDecodedInstruction :
    (∃ (s : State) (i : Instr), s.cstate ≠ .closed ∧ decode (fetch s).1 = .ok i) ∧
    (∃ (s : State) (c : Cmd) (rest : List Cmd), s.issue = c :: rest ∧ decode (fetch s).1 = .ok .flush) ∧
    State.reset.issue = [] :=
  ⟨⟨State.reset, .cycT2r, by decide, rfl⟩,
    ⟨{ State.reset with issue := [encode .flush] }, encode .flush, [], rfl, rfl⟩, rfl⟩

theorem witness_SequencerPerformsTheCycleOfItsDirection (d : Dir) :
    ∃ s : State, s.issue = [] ∧ s.cstate ≠ .closed ∧ s.dir = d :=
  ⟨State.resetFor d, rfl, by simp [State.resetFor], rfl⟩

theorem witness_ClosedIsTerminal (d : Dir) : ∃ s : State, s.cstate = .closed ∧ s.dir = d :=
  ⟨at_ .closed (State.resetFor d), rfl, rfl⟩

theorem witness_EveryStepKeepsGoodStates : ∃ s t : State, Inv s ∧ step s = .next t :=
  ⟨t2rReading, stepped t2rReading, inv_of_check (by decide +kernel), next_stepped (by decide +kernel)⟩

theorem witness_SequencerNeverStuckFromGoodStates : ∃ s : State, Inv s ∧ s.issue = [] ∧ s.cstate ≠ .closed :=
  ⟨r2tSending, inv_of_check (by decide +kernel), rfl, by decide⟩

/-- The one stop that statement leaves: a received RTU frame of one byte (V-RU-5). -/
theorem witness_one_byte_frame :
    ∃ s : State, Inv s ∧ s.issue = [] ∧ s.cstate = .awaitMasterRequest ∧ step s = .refused (.shortRtuFrame 1) :=
  ⟨at_ .awaitMasterRequest (stateOf .r2t (linkOf [data [0x11#8]]) (linkOf [])), inv_of_check (by decide +kernel), rfl, rfl, rfl⟩

theorem witness_ConfigurationNeverChanges : ∃ s t : State, step s = .next t ∧ s.dir = .r2t :=
  ⟨r2tSending, stepped r2tSending, next_stepped (by decide +kernel), rfl⟩

/-- `t2rReading` with the cancellation input set. -/
def cancelled : State := { t2rReading with env := { t2rReading.env with cancel := true } }

theorem witness_CancelNeverReturnsToZero : ∃ s t : State, step s = .next t ∧ s.env.cancel = true :=
  ⟨cancelled, stepped cancelled, next_stepped (by decide +kernel), rfl⟩

theorem witness_WarningsAreStickyAndLogOnlyGrows :
    ∃ (i : Instr) (s t : State), exec i s = .next t ∧ s.warn ≠ 0#2 ∧ t.log ≠ s.log :=
  ⟨.r2tRsp 12, holding mbapWrite (State.logEvent (State.setSentTid State.reset 2#16) .wCrc), _,
    next_after (by decide +kernel), by decide, by decide +kernel⟩

theorem witness_SequencerStateMovesOnlyInItsLoop :
    (∃ s t : State, exec .cycT2r s = .next t ∧ t.cstate ≠ s.cstate) ∧
    (∃ s t : State, exec (.teardown .aborted) s = .next t ∧ t.cstate ≠ s.cstate) ∧
    (∃ s t : State, s.issue = [] ∧ step s = .next t ∧ t.cstate = .closed) :=
  ⟨⟨t2rReading, _, next_after (by decide +kernel), by decide +kernel⟩,
    ⟨State.reset, _, next_after (by decide +kernel), by decide +kernel⟩,
    ⟨cancelled, _, rfl, next_stepped (by decide +kernel), by decide +kernel⟩⟩

theorem witness_TransactionIdAdvancesOnlyAfterASentRequest :
    ∃ (i : Instr) (s t : State), exec i s = .next t ∧ t.txid ≠ s.txid :=
  ⟨.cycR2t, r2tSending, _, next_after (by decide +kernel), by decide +kernel⟩

theorem witness_ReverseDirectionNeverDiscards : ∃ s t : State, s.issue = [] ∧ s.dir = .r2t ∧ step s = .next t :=
  ⟨r2tSending, _, rfl, rfl, next_stepped (by decide +kernel)⟩

/-! ### Witnesses: field reader and estimator -/

theorem witness_FieldReaderIsPureAndRefusesBeyondTheData :
    0 + 2 ≤ ([0#8, 1#8] : List Byte).length ∧ ([0#8, 1#8] : List Byte).length < 1 + 2 ∧
    0 + 8 ≤ (List.replicate 8 0#8).length ∧ (List.replicate 8 0#8).length < 1 + 8 ∧
    4 + 4 ≤ (List.replicate 8 0#8).length ∧ (List.replicate 8 0#8).length < 5 + 4 := by decide

theorem witness_estimator_rows :
    Instr.estFc02 ∈ [Instr.est 0x01#8, Instr.est 0x02#8, Instr.estFc01, Instr.estFc02] ∧
    Instr.est 0x04#8 ∈ [Instr.est 0x03#8, Instr.est 0x04#8, Instr.estFc03, Instr.estFc04] ∧
    Instr.estFc10 ∈ [Instr.est 0x05#8, Instr.est 0x06#8, Instr.est 0x0F#8, Instr.est 0x10#8,
      Instr.estFc05, Instr.estFc06, Instr.estFc0F, Instr.estFc10] := by simp

theorem witness_OtherFunctionCodesAreUnknown : ∀ fc ∈ [0x00#8, 0x07#8, 0x0E#8, 0x11#8, 0xFF#8],
    (fc.toNat = 0 ∨ (0x07 ≤ fc.toNat ∧ fc.toNat ≤ 0x0E) ∨ 0x11 ≤ fc.toNat) := by decide

/-! ### Witnesses: readers -/

theorem witness_readers_open (l : LinkId) : ∃ s : State, 260 ≤ 260 ∧ (s.env.link l).isOpen = true :=
  ⟨State.reset, by omega, by cases l <;> rfl⟩

theorem witness_MbapSuccessIsDelimitedByTheLengthField :
    ∃ (l : LinkId) (cap : Nat) (s t : State) (n : Nat), exec (.rdmbap l cap) s = .next t ∧ t.outcome = .success n ∧ n = 12 :=
  ⟨.M, 260, t2rReading, _, 12, next_after (by decide +kernel), by decide +kernel, rfl⟩

/-- The smallest frame, V-MB-6, filling the capacity exactly, V-MB-18. -/
theorem witness_mbap_smallest :
    ∃ s t : State, exec (.rdmbap .M 7) s = .next t ∧ t.outcome = .success 7 :=
  ⟨stateOf .t2r (linkOf [data [0x00#8, 0x01#8, 0x00#8, 0x00#8, 0x00#8, 0x01#8, 0x11#8]]) Link.fresh, _,
    next_after (by decide +kernel), by decide +kernel⟩

/-- A master that sends these bytes in one chunk. -/
def rtuReading (d : Dir) (bs : List Byte) : State := at_ .awaitMasterRequest (stateOf d (linkOf [data bs]) (linkOf []))

/-- V-RK-1, V-RK-3, V-RU-5, V-RU-12: exact, shortcut, one byte, three bytes. -/
theorem witness_RtuSuccessIsExactOrShortcutOrQuiet :
    (∃ s t : State, exec (.rdrtu .M 260 (.known 6#18)) s = .next t ∧ t.outcome = .success 9) ∧
    (∃ s t : State, exec (.rdrtu .M 260 (.known 22#18)) s = .next t ∧ t.outcome = .success 5) ∧
    (∃ s t : State, exec (.rdrtu .M 260 .unknown) s = .next t ∧ t.outcome = .success 1) ∧
    (∃ s t : State, exec (.rdrtu .M 260 .unknown) s = .next t ∧ t.outcome = .success 3) :=
  ⟨⟨rtuReading .r2t rtuResponse, _, next_after (by decide +kernel), by decide +kernel⟩,
    ⟨rtuReading .r2t [0x01#8, 0x83#8, 0x02#8, 0xC0#8, 0xF1#8], _, next_after (by decide +kernel), by decide +kernel⟩,
    ⟨rtuReading .r2t [0x11#8], _, next_after (by decide +kernel), by decide +kernel⟩,
    ⟨rtuReading .r2t [0x11#8, 0x7F#8, 0x4C#8], _, next_after (by decide +kernel), by decide +kernel⟩⟩

theorem witness_CancelledReaderReadsNothing (l : LinkId) :
    Instr.rdrtu l 0 .unknown ∈ [Instr.rdmbap l 0, Instr.rdrtu l 0 .unknown] ∧ (0 : Nat) ≤ 260 ∧
    (cancelled.env.link l).isOpen = true ∧ cancelled.env.cancelNow = true :=
  ⟨by simp, by omega, by cases l <;> rfl, rfl⟩

theorem witness_ReaderOutcomesAreThoseOfTheTable :
    (∃ s t : State, exec (.rdmbap .M 260) s = .next t) ∧ (∃ s t : State, exec (.rdrtu .M 260 .unknown) s = .next t) ∧
    (∃ s t : State, exec (.rdrtu .M 260 (.known 6#18)) s = .next t) :=
  ⟨⟨t2rReading, _, next_after (by decide +kernel)⟩, ⟨rtuReading .r2t rtuWrite, _, next_after (by decide +kernel)⟩,
    ⟨rtuReading .r2t rtuResponse, _, next_after (by decide +kernel)⟩⟩

theorem witness_ReadersChangeOnlyWhatTheyWrite :
    (∃ s t : State, Instr.rdmbap .M 260 ∈ [Instr.rdmbap .M 260, Instr.rdrtu .M 260 .unknown] ∧
      exec (.rdmbap .M 260) s = .next t) ∧
    (∃ s t : State, Instr.rdrtu .M 260 .unknown ∈ [Instr.rdmbap .M 260, Instr.rdrtu .M 260 .unknown] ∧
      exec (.rdrtu .M 260 .unknown) s = .next t) :=
  ⟨⟨t2rReading, _, by simp, next_after (by decide +kernel)⟩,
    ⟨rtuReading .r2t rtuWrite, _, by simp, next_after (by decide +kernel)⟩⟩

theorem witness_ReaderPreconditionsAreRefused (l : LinkId) :
    260 < 261 ∧ ∃ s : State, (s.env.link l).isOpen = false :=
  ⟨by omega, ⟨after (.teardown .aborted) State.reset, by cases l <;> decide +kernel⟩⟩

/-! ### Witnesses: link port -/

/-- A read of one byte from a chunk of two, and a read that times out. -/
theorem witness_ReceiveDeliversTheNextBytesOfTheStream :
    (∃ e : Env, (e.link .M).answers ≠ [] ∧ e.recvAnswer .M 1 = .data 0x01#8 []) ∧
    (∃ e : Env, (e.link .M).answers.head? = some .timedOut ∧ ∀ b bs, RecvAnswer.timedOut ≠ .data b bs) :=
  ⟨⟨(stateOf .t2r (linkOf [data [0x01#8, 0x02#8]]) Link.fresh).env, by decide, rfl⟩,
    ⟨(stateOf .t2r (linkOf [.timedOut]) Link.fresh).env, rfl, by intro b bs h; cases h⟩⟩

theorem witness_FlushDropsAPrefixAndWritesNothing : State.reset.env.slave.isOpen = true := rfl

/-- One byte and 264 bytes staged, taken and not taken. -/
theorem witness_SendTransmitsTheStagedFrame (frame : List Byte) (h1 : frame = [0x01#8] ∨ frame = List.replicate 264 0x01#8) :
    ∃ s : State, frame.length = s.txlen ∧ 1 ≤ s.txlen ∧ s.txlen ≤ 264 ∧ Holds s.txb frame ∧ (s.env.link .S).isOpen = true ∧
      s.env.sendAnswer .S = .ok ∧
      ({ s with env := (stateOf .t2r Link.fresh { linkOf [] with sends := [.fault .reset 0] }).env }).env.sendAnswer .S =
        .fault .reset 0 :=
  ⟨staging frame (stateOf .t2r Link.fresh (linkOf [])), rfl, by rcases h1 with rfl | rfl <;> decide +kernel,
    by rcases h1 with rfl | rfl <;> decide +kernel,
    holds_putAll _, rfl, rfl, rfl⟩

theorem witness_SendWithNothingStagedIsRefused : State.reset.txlen = 0 := rfl

theorem witness_TeardownClosesBothLinks : BothOpen State.reset := ⟨rfl, rfl⟩

theorem witness_LinkOperationsOnClosedLinksAreRefused :
    (∃ s : State, s.env.slave.isOpen = false ∧ s.env.master.isOpen = false ∧ s.txlen = 1) ∧
    (∃ s : State, s.env.master.isOpen = true ∧ s.env.slave.isOpen = false) :=
  ⟨⟨staging [0x01#8] (stateOf .t2r { Link.fresh with isOpen := false } { Link.fresh with isOpen := false }), rfl, rfl, rfl⟩,
    ⟨stateOf .t2r Link.fresh { Link.fresh with isOpen := false }, rfl, rfl⟩⟩

/-! ### Witnesses: converters -/

/-- The shortest and the longest request (V-TQ-2, V-MB-14). -/
theorem witness_T2rRequestIsConverted (body : List Byte) (h : body = [0x11#8] ∨ body = List.replicate 254 0x41#8) :
    ∃ s : State, 1 ≤ body.length ∧ body.length ≤ 254 ∧ body.length + 6 ≤ s.rxlen ∧
      Holds s.rxb ([0x00#8, 0x01#8, 0x00#8, 0x00#8, 0x00#8, 0x01#8] ++ body) :=
  ⟨holding ([0x00#8, 0x01#8, 0x00#8, 0x00#8, 0x00#8, 0x01#8] ++ body) State.reset,
    by rcases h with rfl | rfl <;> decide +kernel, by rcases h with rfl | rfl <;> decide +kernel,
    by simp [holding], holds_putAll _⟩

/-- The shortest and the longest response (V-TP-3, V-TP-6), with the ids of reset. -/
theorem witness_T2rResponseIsConverted (body : List Byte) (h : body = [0x01#8] ∨ body = List.replicate 258 0x41#8) :
    ∃ s : State, 1 ≤ body.length ∧ body.length ≤ 258 ∧ body.length + 2 ≤ s.rxlen ∧ Holds s.rxb (body ++ [0x7E#8, 0x80#8]) ∧
      s.written.savedTid = false :=
  ⟨holding (body ++ [0x7E#8, 0x80#8]) State.reset,
    by rcases h with rfl | rfl <;> decide +kernel, by rcases h with rfl | rfl <;> decide +kernel,
    by simp [holding], holds_putAll _, rfl⟩

theorem witness_R2tRequestIsConverted :
    1 ≤ ([0x11#8] : List Byte).length ∧ ([0x11#8] : List Byte).length + 2 ≤ (holding [0x11#8, 0x7F#8, 0x4C#8] State.reset).rxlen ∧
      Holds (holding [0x11#8, 0x7F#8, 0x4C#8] State.reset).rxb ([0x11#8] ++ [0x7F#8, 0x4C#8]) :=
  ⟨by decide, by decide, holds_putAll _⟩

/-- V-RP-3 with a matching and with another id. -/
theorem witness_R2tResponseIsConverted (sent : Word16) (_h : sent = 1#16 ∨ sent = 2#16) :
    ∃ s : State, 1 + 6 ≤ s.rxlen ∧ Holds s.rxb ([0x00#8, 0x01#8, 0x00#8, 0x00#8, 0x00#8, 0x01#8] ++ [0x11#8]) ∧
      s.sentTid = sent :=
  ⟨State.setSentTid (holding [0x00#8, 0x01#8, 0x00#8, 0x00#8, 0x00#8, 0x01#8, 0x11#8] State.reset) sent, Nat.le_refl 7,
    holds_putAll _, rfl⟩

theorem witness_FrameLengthsOutOfRangeAreRefused : 2 < 3 ∧ 6 < 7 ∧ 260 < 261 := by decide

/-- One step that answers with every such register unwritten, and the one refusal a good state meets (V-RU-5). -/
theorem witness_SequencerReadsNoUnwrittenRegister :
    (∃ s t : State, Inv s ∧ s.issue = [] ∧ s.written = Written.no ∧ step s = .next t) ∧
    (∃ s : State, Inv s ∧ s.issue = [] ∧ s.written = Written.no ∧ step s = .refused (.shortRtuFrame 1)) ∧
    (∃ s : State, Inv s ∧ s.issue = [] ∧ s.written.savedTid = false ∧ step s = .fault .closed) :=
  ⟨⟨t2rReading, stepped t2rReading, inv_of_check (by decide +kernel), rfl, rfl, next_stepped (by decide +kernel)⟩,
    ⟨rtuReading .r2t [0x11#8], inv_of_check (by decide +kernel), rfl, rfl, rfl⟩,
    ⟨stepped cancelled, inv_of_check (by decide +kernel), by decide +kernel, by decide +kernel, rfl⟩⟩

/-! ### Witnesses: sequencers, each outcome of each state -/

theorem witness_IdleStepBeginsTheCycle (d : Dir) : (State.resetFor d).cstate = .idle ∧ (State.resetFor d).dir = d := ⟨rfl, rfl⟩

theorem witness_T2rAwaitMasterRequestStep :
    (∃ s u v : State, s.dir = .t2r ∧ s.cstate = .awaitMasterRequest ∧ BothOpen s ∧ exec (.rdmbap .M 260) s = .next u ∧
      u.outcome = .success 12 ∧ exec (.t2rReq 12) u = .next v) ∧
    (∃ s u : State, s.dir = .t2r ∧ s.cstate = .awaitMasterRequest ∧ BothOpen s ∧ exec (.rdmbap .M 260) s = .next u ∧
      u.outcome = .timeout) ∧
    (∃ s u : State, s.dir = .t2r ∧ s.cstate = .awaitMasterRequest ∧ BothOpen s ∧ exec (.rdmbap .M 260) s = .next u ∧
      u.outcome = .fatal .disconnected) :=
  ⟨⟨t2rReading, _, _, rfl, rfl, ⟨rfl, rfl⟩, next_after (by decide +kernel), by decide +kernel,
      next_after (i := .t2rReq 12) (by decide +kernel)⟩,
    ⟨at_ .awaitMasterRequest (stateOf .t2r (linkOf [.timedOut]) (linkOf [])), _, rfl, rfl, ⟨rfl, rfl⟩,
      next_after (by decide +kernel), by decide +kernel⟩,
    ⟨at_ .awaitMasterRequest (stateOf .t2r (linkOf [.zero]) (linkOf [])), _, rfl, rfl, ⟨rfl, rfl⟩,
      next_after (by decide +kernel), by decide +kernel⟩⟩

/-- A T2R instance with a request staged, whose slave answers a frame as told. -/
def t2rSending (a : SendAnswer) : State :=
  at_ .forwardToSlave (staging rtuRequest (serving (stateOf .t2r (linkOf []) { linkOf [] with sends := [a] })))

theorem witness_T2rForwardToSlaveStep :
    (∃ s u v : State, s.dir = .t2r ∧ s.cstate = .forwardToSlave ∧ BothOpen s ∧ exec .flush s = .next u ∧
      exec (.send .S) u = .next v ∧ v.result = .sendOk) ∧
    (∃ s u v : State, s.dir = .t2r ∧ s.cstate = .forwardToSlave ∧ BothOpen s ∧ exec .flush s = .next u ∧
      exec (.send .S) u = .next v ∧ v.result = .sendError .reset) :=
  ⟨⟨t2rSending .ok, _, _, rfl, rfl, ⟨rfl, rfl⟩, next_after (by decide +kernel), next_after (by decide +kernel),
      by decide +kernel⟩,
    ⟨t2rSending (.fault .reset 3), _, _, rfl, rfl, ⟨rfl, rfl⟩, next_after (by decide +kernel),
      next_after (by decide +kernel), by decide +kernel⟩⟩

/-- A T2R instance that waits for the response to P1. -/
def t2rAwaiting (a : RecvAnswer) : State := at_ .awaitSlaveResponse (serving (stateOf .t2r (linkOf []) (linkOf [a])))

theorem witness_T2rAwaitSlaveResponseStep :
    (∃ s u v : State, s.dir = .t2r ∧ s.cstate = .awaitSlaveResponse ∧ BothOpen s ∧
      exec (.rdrtu .S 260 s.explen) s = .next u ∧ u.outcome = .success 9 ∧ exec (.t2rRsp 9) u = .next v) ∧
    (∃ s u : State, s.dir = .t2r ∧ s.cstate = .awaitSlaveResponse ∧ BothOpen s ∧
      exec (.rdrtu .S 260 s.explen) s = .next u ∧ u.outcome = .timeout) ∧
    (∃ s u : State, s.dir = .t2r ∧ s.cstate = .awaitSlaveResponse ∧ BothOpen s ∧
      exec (.rdrtu .S 260 s.explen) s = .next u ∧ u.outcome = .fatal (.rawError .networkDown)) :=
  ⟨⟨t2rAwaiting (data rtuResponse), _, _, rfl, rfl, ⟨rfl, rfl⟩, next_after (by decide +kernel), by decide +kernel,
      next_after (i := .t2rRsp 9) (by decide +kernel)⟩,
    ⟨t2rAwaiting .timedOut, _, rfl, rfl, ⟨rfl, rfl⟩, next_after (by decide +kernel), by decide +kernel⟩,
    ⟨t2rAwaiting (.fault .networkDown), _, rfl, rfl, ⟨rfl, rfl⟩, next_after (by decide +kernel), by decide +kernel⟩⟩

/-- An instance with a response staged, whose master answers a frame as told. -/
def answering (d : Dir) (a : SendAnswer) : State :=
  at_ .forwardToMaster (staging mbapResponse (serving (stateOf d { linkOf [] with sends := [a] } (linkOf []))))

theorem witness_ForwardToMasterStep (d : Dir) :
    (∃ s u : State, s.dir = d ∧ s.cstate = .forwardToMaster ∧ BothOpen s ∧ exec (.send .M) s = .next u ∧ u.result = .sendOk) ∧
    (∃ s u : State, s.dir = d ∧ s.cstate = .forwardToMaster ∧ BothOpen s ∧ exec (.send .M) s = .next u ∧
      u.result = .sendError .unknown) :=
  ⟨⟨answering d .ok, _, rfl, rfl, ⟨rfl, rfl⟩, next_after (by cases d <;> decide +kernel), by cases d <;> decide +kernel⟩,
    ⟨answering d (.fault .unknown 0), _, rfl, rfl, ⟨rfl, rfl⟩, next_after (by cases d <;> decide +kernel),
      by cases d <;> decide +kernel⟩⟩

theorem witness_R2tAwaitMasterRequestStep :
    (∃ s u v : State, s.dir = .r2t ∧ s.cstate = .awaitMasterRequest ∧ BothOpen s ∧ exec (.rdrtu .M 260 .unknown) s = .next u ∧
      u.outcome = .success 8 ∧ exec (.r2tReq 8) u = .next v) ∧
    (∃ s u : State, s.dir = .r2t ∧ s.cstate = .awaitMasterRequest ∧ BothOpen s ∧ exec (.rdrtu .M 260 .unknown) s = .next u ∧
      u.outcome = .timeout) ∧
    (∃ s u : State, s.dir = .r2t ∧ s.cstate = .awaitMasterRequest ∧ BothOpen s ∧ exec (.rdrtu .M 260 .unknown) s = .next u ∧
      u.outcome = .fatal .aborted) :=
  ⟨⟨rtuReading .r2t rtuWrite, _, _, rfl, rfl, ⟨rfl, rfl⟩, next_after (by decide +kernel), by decide +kernel,
      next_after (i := .r2tReq 8) (by decide +kernel)⟩,
    ⟨at_ .awaitMasterRequest (stateOf .r2t (linkOf [.timedOut]) (linkOf [])), _, rfl, rfl, ⟨rfl, rfl⟩,
      next_after (by decide +kernel), by decide +kernel⟩,
    ⟨rtuReading .r2t [0x11#8, 0x06#8], _, rfl, rfl, ⟨rfl, rfl⟩, next_after (by decide +kernel), by decide +kernel⟩⟩

/-- `r2tSending` whose slave refuses the frame. -/
def r2tSendingFails : State :=
  at_ .forwardToSlave (staging mbapWrite (serving (stateOf .r2t (linkOf []) { linkOf [] with sends := [.fault .aborted 0] })))

theorem witness_R2tForwardToSlaveStep :
    (∃ s u : State, s.dir = .r2t ∧ s.cstate = .forwardToSlave ∧ BothOpen s ∧ exec (.send .S) s = .next u ∧
      u.result = .sendOk ∧ s.txid = 0xFFFF#16) ∧
    (∃ s u : State, s.dir = .r2t ∧ s.cstate = .forwardToSlave ∧ BothOpen s ∧ exec (.send .S) s = .next u ∧
      u.result = .sendError .aborted) :=
  ⟨⟨r2tSending, _, rfl, rfl, ⟨rfl, rfl⟩, next_after (by decide +kernel), by decide +kernel, rfl⟩,
    ⟨r2tSendingFails, _, rfl, rfl, ⟨rfl, rfl⟩, next_after (by decide +kernel), by decide +kernel⟩⟩

/-- An R2T instance that waits for an MBAP response. -/
def r2tAwaiting (a : RecvAnswer) : State := at_ .awaitSlaveResponse (serving (stateOf .r2t (linkOf []) (linkOf [a])))

theorem witness_R2tAwaitSlaveResponseStep :
    (∃ s u v : State, s.dir = .r2t ∧ s.cstate = .awaitSlaveResponse ∧ BothOpen s ∧ exec (.rdmbap .S 260) s = .next u ∧
      u.outcome = .success 12 ∧ exec (.r2tRsp 12) u = .next v) ∧
    (∃ s u : State, s.dir = .r2t ∧ s.cstate = .awaitSlaveResponse ∧ BothOpen s ∧ exec (.rdmbap .S 260) s = .next u ∧
      u.outcome = .timeout) ∧
    (∃ s u : State, s.dir = .r2t ∧ s.cstate = .awaitSlaveResponse ∧ BothOpen s ∧ exec (.rdmbap .S 260) s = .next u ∧
      u.outcome = .fatal .disconnected) :=
  ⟨⟨r2tAwaiting (data mbapWrite), _, _, rfl, rfl, ⟨rfl, rfl⟩, next_after (by decide +kernel), by decide +kernel,
      next_after (i := .r2tRsp 12) (by decide +kernel)⟩,
    ⟨r2tAwaiting .timedOut, _, rfl, rfl, ⟨rfl, rfl⟩, next_after (by decide +kernel), by decide +kernel⟩,
    ⟨r2tAwaiting .zero, _, rfl, rfl, ⟨rfl, rfl⟩, next_after (by decide +kernel), by decide +kernel⟩⟩

theorem witness_FatalOutcomeClosesAndKeepsRegisters :
    (∃ s t : State, s.issue = [] ∧ step s = .next t ∧ t.cstate = .closed ∧ s.dir = .t2r) ∧
    (∃ s t : State, s.issue = [] ∧ step s = .next t ∧ t.cstate = .closed ∧ s.dir = .r2t) :=
  ⟨⟨cancelled, _, rfl, next_stepped (by decide +kernel), by decide +kernel, rfl⟩,
    ⟨r2tSendingFails, _, rfl, next_stepped (by decide +kernel), by decide +kernel, rfl⟩⟩

theorem witness_OtherDirectionsCycleIsRefused (d : Dir) : (State.resetFor d).dir = d := rfl

/-- P1 as one exchange. -/
theorem witness_T2rExchangeForwardsRequestAndResponse :
    ∃ s : State, Inv s ∧ s.dir = .t2r ∧ s.cstate = .idle ∧ s.issue = [] ∧ s.env.cancel = false ∧
      s.env.cancels = false :: false :: [false, false] ∧
      (0x00#8).toNat * 256 + (0x06#8).toNat = (0x01#8 :: [0x03#8, 0x00#8, 0x00#8, 0x00#8, 0x02#8]).length ∧
      (0x01#8 :: [0x03#8, 0x00#8, 0x00#8, 0x00#8, 0x02#8]).length ≤ 254 ∧
      s.env.master.answers = .data 0x00#8 ([0x07#8, 0x00#8, 0x00#8, 0x00#8, 0x06#8] ++
        0x01#8 :: [0x03#8, 0x00#8, 0x00#8, 0x00#8, 0x02#8]) :: [] ∧
      Spec.requestExpectation (0x01#8 :: [0x03#8, 0x00#8, 0x00#8, 0x00#8, 0x02#8]) = .known 6#18 ∧
      (0x01#8 :: [0x03#8, 0x04#8, 0x00#8, 0x0A#8, 0x00#8, 0x14#8]).length = (6#18).toNat + 1 ∧ (6#18).toNat + 3 ≤ 260 ∧
      s.env.slave.answers = .data 0x01#8 ([0x03#8, 0x04#8, 0x00#8, 0x0A#8, 0x00#8, 0x14#8] ++
        [loByte (crc16 (0x01#8 :: [0x03#8, 0x04#8, 0x00#8, 0x0A#8, 0x00#8, 0x14#8])),
          hiByte (crc16 (0x01#8 :: [0x03#8, 0x04#8, 0x00#8, 0x0A#8, 0x00#8, 0x14#8]))]) :: [] ∧
      s.env.slave.discards.head? = some 0 ∧ s.env.slave.sends = .ok :: [] ∧ s.env.master.sends = .ok :: [] :=
  ⟨stateOf .t2r (linkOf [data mbapRequest]) (linkOf [data rtuResponse]), inv_of_check (by decide +kernel), rfl, rfl, rfl, rfl,
    rfl, by decide, by decide, rfl, by decide +kernel, by decide, by decide, by decide +kernel, rfl, rfl, rfl⟩

/-- The first exchange of P2. -/
theorem witness_R2tExchangeForwardsRequestAndResponse :
    ∃ s : State, Inv s ∧ s.dir = .r2t ∧ s.cstate = .idle ∧ s.issue = [] ∧ s.env.cancel = false ∧
      s.env.cancels = false :: false :: [false, false] ∧
      (0x11#8 :: [0x06#8, 0x00#8, 0x01#8, 0x00#8, 0x03#8]).length ≤ 258 ∧
      s.env.master.answers = .data 0x11#8 ([0x06#8, 0x00#8, 0x01#8, 0x00#8, 0x03#8] ++
        [loByte (crc16 (0x11#8 :: [0x06#8, 0x00#8, 0x01#8, 0x00#8, 0x03#8])),
          hiByte (crc16 (0x11#8 :: [0x06#8, 0x00#8, 0x01#8, 0x00#8, 0x03#8]))]) :: [] ∧
      s.env.master.pendings = false :: [false] ∧
      (0x00#8).toNat * 256 + (0x06#8).toNat = (0x11#8 :: [0x06#8, 0x00#8, 0x01#8, 0x00#8, 0x03#8]).length ∧
      (0x11#8 :: [0x06#8, 0x00#8, 0x01#8, 0x00#8, 0x03#8]).length ≤ 254 ∧
      s.env.slave.answers = .data 0x00#8 ([0x01#8, 0x00#8, 0x00#8, 0x00#8, 0x06#8] ++
        0x11#8 :: [0x06#8, 0x00#8, 0x01#8, 0x00#8, 0x03#8]) :: [] ∧
      s.env.slave.sends = .ok :: [] ∧ s.env.master.sends = .ok :: [] :=
  ⟨stateOf .r2t (linkOf [data rtuWrite]) (linkOf [data mbapWrite]), inv_of_check (by decide +kernel), rfl, rfl, rfl, rfl,
    rfl, by decide, by decide +kernel, rfl, by decide, by decide, rfl, rfl, rfl⟩

end Sys2Proof.Tests
end

section
/-! SUPPORT. What one step can do, said once: the atomic updates an operation is made of (`Update`), the three ways a state rule
of the sequencer ends (`CycleStep`), and the inversion lemma of every operation, of `exec` and of `step` in these terms. -/

namespace Sys2Proof.Machine

open Sys2Proof.Spec

/-! ### The vocabulary -/

/-- A whole frame written to TXB with its TXLEN: what `stage` answers. -/
def State.stageFrame (s : State) (frame : List Byte) : State :=
  { s with txb := Buffer.putAll 0 frame s.txb, txlen := frame.length }

/-- The atomic updates of the operations, none of which moves CSTATE or changes CFG, each with the bound it is made under. -/
inductive Update : State → State → Prop where
  | result (s : State) (r : OpResult) : Update s (s.setResult r)
  | crc (s : State) (v : Word16) : Update s (s.setCrc v)
  | ids (s : State) (tid pid : Word16) : Update s (s.saveIds tid pid)
  | sentTid (s : State) (v : Word16) : Update s (s.setSentTid v)
  | explen (s : State) (e : Expectation) : Update s (s.setExplen e)
  | txid (s : State) (v : Word16) : Update s (s.setTxid v)
  | log (s : State) (e : LogEvent) : Update s (s.logEvent e)
  | outcome (s : State) (o : ReadOutcome) : (∀ n, o = .success n → n ≤ Config.cap) → Update s (s.setOutcome o)
  | env (s : State) (e : Env) : (∀ m, (e.link m).isOpen = (s.env.link m).isOpen) → (s.env.cancel = true → e.cancel = true) →
      Update s (s.setEnv e)
  | restart (s : State) : Update s (s.setRxlen 0)
  | append (s : State) (c : List Byte) : s.rxlen + c.length ≤ Config.cap → Update s (s.append c)
  | stage (s : State) (frame : List Byte) : 1 ≤ frame.length → frame.length ≤ Config.txCap → Update s (s.stageFrame frame)
  | taken (s : State) (rest : List Cmd) : Update s { s with issue := rest }

/-- Any number of atomic updates. -/
abbrev Updates : State → State → Prop := Relation.ReflTransGen Update

/-- A request has been converted: its frame is staged and the registers its response needs are written (10_state R16 to R19). -/
structure Served (s : State) : Prop where
  staged : 1 ≤ s.txlen
  saved : s.dir = .t2r → s.written.savedTid = true ∧ s.written.savedPid = true ∧ s.written.explen = true
  sent : s.dir = .r2t → s.written.sentTid = true

/-- The three ways a state rule of the sequencer ends: CSTATE advances, a reading state is kept, or the pair is torn down. -/
inductive CycleStep (s : State) : State → Prop where
  | advance (u : State) : Updates s u → s.cstate ≠ .closed → (s.cstate = .awaitMasterRequest → Served u) →
      CycleStep s (u.setCState (succState s.cstate))
  | again (u : State) : Updates s u → reading s.cstate → CycleStep s u
  | close (u : State) : Updates s u → CycleStep s (tornDown u)

/-- The instructions that may move CSTATE. -/
def MovesCState (i : Instr) : Prop := i = .cycT2r ∨ i = .cycR2t ∨ ∃ o, i = .teardown o

/-- The updates keep CSTATE. -/
theorem Updates.cstate {s t : State} (h : Updates s t) : t.cstate = s.cstate := by
  induction h with
  | refl => rfl
  | tail _ hu ih => cases hu <;> exact ih

/-- The updates keep CFG. -/
theorem Updates.dir {s t : State} (h : Updates s t) : t.dir = s.dir := by
  induction h with
  | refl => rfl
  | tail _ hu ih => cases hu <;> exact ih

/-! ### The link operations -/

theorem flushSlave_updates {s t : State} (h : flushSlave s = .next t) : Updates s t := by
  obtain ⟨-, rfl⟩ := flushSlave_eq_next h
  exact .single (.env s _ (fun m => by simp) (by simp))

theorem sendStaged_updates {l : LinkId} {s : State} {p : Option Category × State} (h : sendStaged l s = .next p) :
    Updates s p.2 := by
  obtain ⟨-, -, frame, -, rfl⟩ := sendStaged_eq_next h
  have he : Updates s (s.setEnv (s.env.afterSend l frame)) := .single (.env s _ (fun m => by simp) (by simp))
  rcases recordSend_cases l frame s with ⟨-, h⟩ | ⟨k, r, -, h⟩ <;> rw [h]
  · exact he
  · exact he.tail (.outcome _ _ (fun n hn => by cases hn))

theorem teardown_tornDown {o : FatalOutcome} {s t : State} (h : teardown o s = .next t) : t = tornDown s := by
  obtain ⟨-, -, rfl⟩ := teardown_eq_next h
  rfl

/-! ### The readers -/

theorem sample_update (s : State) : Update s (s.setEnv s.env.afterSample) :=
  .env s _ (fun m => by simp) Env.cancelNow_of_cancel

theorem iterationEnv_update (l : LinkId) (cap : Nat) (s : State) : Update s (s.setEnv (iterationEnv l cap s)) :=
  .env s _ (fun m => by simp [iterationEnv]) (fun h => by simpa [iterationEnv] using Env.cancelNow_of_cancel h)

theorem rtuVerdict_updates (l : LinkId) (exp : Expectation) (s : State) : Updates s (rtuVerdict l exp s).2 := by
  have he : Updates s (s.setEnv (s.env.afterPending l)) := .single (.env s _ (fun m => by simp) (by simp))
  unfold rtuVerdict
  rcases rtuTests_state exp (s.env.pendingAnswer l) (s.setEnv (s.env.afterPending l)) with h | ⟨v, h⟩ | h | ⟨v, h⟩ <;> rw [h]
  · exact he
  · exact he.tail (.crc _ v)
  · exact he.tail (.log _ _)
  · exact (he.tail (.crc _ v)).tail (.log _ _)

/-- A success of the tests returns the number of bytes accumulated. -/
def ReturnsLength (verdict : State → Option ReadOutcome × State) : Prop :=
  ∀ u n t, verdict u = (some (.success n), t) → n = u.rxlen

theorem mbapVerdict_success {u t : State} {n : Nat} (h : mbapVerdict u = (some (.success n), t)) :
    n = u.rxlen ∧ 7 ≤ n := by
  rcases mbapVerdict_cases u with ⟨h6, -, hv⟩ | ⟨-, -, hv⟩ | ⟨-, hv⟩ <;> rw [hv] at h <;> simp at h
  omega

theorem rtuVerdict_success {l : LinkId} {exp : Expectation} {u t : State} {n : Nat}
    (h : rtuVerdict l exp u = (some (.success n), t)) : n = u.rxlen ∧ n ≠ 2 :=
  rtuTests_success (s := u.setEnv (u.env.afterPending l)) h

theorem mbapVerdict_returnsLength : ReturnsLength mbapVerdict := fun _ _ _ h => (mbapVerdict_success h).1

theorem rtuVerdict_returnsLength (l : LinkId) (exp : Expectation) : ReturnsLength (rtuVerdict l exp) :=
  fun _ _ _ h => (rtuVerdict_success h).1

section Reader

variable {l : LinkId} {cap : Nat} {verdict : State → Option ReadOutcome × State} {s : State} {p : ReadOutcome × State}

/-- The reader loop is made of updates: every append fits, because a chunk fits the room left. -/
theorem readLoop_updates (hcap : cap ≤ Config.cap) (hv : ∀ u, Updates u (verdict u).2) (hk : KeepsFrame verdict) (room : Nat)
    (hs : ReaderFill cap s) : Updates s (readLoop l cap verdict room s).2 := by
  have iteration : ∀ u b bs, ReaderFill cap u → u.rxlen ≠ cap →
      u.env.afterSample.recvAnswer l (cap - u.rxlen) = .data b bs →
      ReaderFill cap (verdict (iterationState l cap u (b :: bs))).2 ∧
        Updates u (verdict (iterationState l cap u (b :: bs))).2 := by
    intro u b bs hu hne hd
    obtain ⟨hle, hheld⟩ := hu.iteration hne hd
    obtain ⟨hlen, hrxb⟩ := hk (iterationState l cap u (b :: bs))
    have hrecv : Updates u (iterationState l cap u (b :: bs)) :=
      (Relation.ReflTransGen.single (iterationEnv_update l cap u)).tail (.append _ _ (hle.trans hcap))
    exact ⟨⟨hlen ▸ hle, by rw [hlen, hrxb]; exact hheld⟩, hrecv.trans (hv _)⟩
  refine readLoop_induct (P := fun u => ReaderFill cap u ∧ Updates s u) (Q := fun _ t => Updates s t)
    (fun u hu _ => hu.2.tail (sample_update u)) (fun u hu => hu.2.tail (sample_update u))
    (fun u hu => hu.2.tail (iterationEnv_update l cap u)) (fun u hu => hu.2.tail (iterationEnv_update l cap u))
    (fun u _ hu => hu.2.tail (iterationEnv_update l cap u)) ?_ ?_ room s ⟨hs, .refl⟩
  · intro u b bs o w ⟨hfill, hup⟩ hne hd hw
    obtain ⟨-, hstep⟩ := iteration u b bs hfill hne hd
    rw [hw] at hstep
    exact hup.trans hstep
  · intro u b bs w ⟨hfill, hup⟩ hne hd hw
    obtain ⟨hfill', hstep⟩ := iteration u b bs hfill hne hd
    rw [hw] at hfill' hstep
    exact ⟨hfill', hup.trans hstep⟩

/-- A successful reader returns with RXLEN in range, and its success is the verdict's, given on a state with that RXLEN. -/
theorem readFrame_success (hk : KeepsFrame verdict) (h : readFrame l cap verdict s = .next p) {n : Nat}
    (hn : p.1 = .success n) :
    p.2.rxlen ≤ Config.cap ∧ ∃ u t, u.rxlen = p.2.rxlen ∧ 1 ≤ u.rxlen ∧ verdict u = (some (.success n), t) := by
  obtain ⟨hcap, -, rfl⟩ := readFrame_eq_next h
  obtain ⟨⟨hle, -⟩, hsucc⟩ := readLoop_fill (l := l) hk cap (s.setRxlen 0) (readerFill_start cap s)
  obtain ⟨u, hlen, hpos, -, -, hverdict⟩ := hsucc n hn
  exact ⟨hle.trans hcap, u, _, hlen, hpos, hverdict⟩

theorem readFrame_updates (hv : ∀ u, Updates u (verdict u).2) (hk : KeepsFrame verdict) (hr : ReturnsLength verdict)
    (h : readFrame l cap verdict s = .next p) : Updates s p.2 := by
  have hlen : ∀ n, p.1 = .success n → n ≤ Config.cap := fun n hn => by
    obtain ⟨hle, u, t, hu, -, hverdict⟩ := readFrame_success hk h hn
    rw [hr u n t hverdict, hu]
    exact hle
  obtain ⟨hcap, -, rfl⟩ := readFrame_eq_next h
  have hloop := readLoop_updates (l := l) hcap hv hk cap (readerFill_start cap s)
  exact ((Relation.ReflTransGen.single (Update.restart s)).trans hloop).tail (.outcome _ _ hlen)

end Reader

theorem rdMbap_updates {l : LinkId} {cap : Nat} {s : State} {p : ReadOutcome × State} (h : rdMbap l cap s = .next p) :
    Updates s p.2 :=
  readFrame_updates (fun _ => .refl) mbapVerdict_keepsFrame mbapVerdict_returnsLength h

theorem rdRtu_updates {l : LinkId} {cap : Nat} {exp : Expectation} {s : State} {p : ReadOutcome × State}
    (h : rdRtu l cap exp s = .next p) : Updates s p.2 :=
  readFrame_updates (rtuVerdict_updates l exp) (rtuVerdict_keepsFrame l exp) (rtuVerdict_returnsLength l exp) h

/-! ### The converter operations -/

theorem t2rReq_updates {n : Nat} {s t : State} (h : t2rReq n s = .next t) : Updates s t := by
  obtain ⟨⟨-, hcap⟩, -, frame, hf, rfl⟩ := t2rReq_eq_next h
  have hl := Buffer.slice_length hf
  have hb : (rtuFrame (frame.drop 6)).length ≤ Config.txCap := by
    simp only [rtuFrame_length, List.length_drop, Config.cap, Config.txCap] at *; omega
  exact (((Relation.ReflTransGen.single (Update.ids s _ _)).tail (.crc _ _)).tail
    (.stage _ _ (by simp) hb)).tail (.explen _ _)

theorem t2rRsp_updates {m : Nat} {s t : State} (h : t2rRsp m s = .next t) : Updates s t := by
  obtain ⟨⟨-, hcap⟩, -, body, hb, rfl⟩ := t2rRsp_eq_next h
  have hl := Buffer.slice_length hb
  refine .single (.stage s _ ?_ ?_) <;>
    simp only [List.length_append, mbapHeader_length, Config.cap, Config.txCap] at * <;> omega

theorem r2tReq_updates {n : Nat} {s t : State} (h : r2tReq n s = .next t) : Updates s t := by
  obtain ⟨⟨-, hcap⟩, -, body, hb, rfl⟩ := r2tReq_eq_next h
  have hl := Buffer.slice_length hb
  refine (Relation.ReflTransGen.single (Update.sentTid s s.txid)).tail (.stage _ _ ?_ ?_) <;>
    simp only [List.length_append, mbapHeader_length, Config.cap, Config.txCap] at * <;> omega

theorem checkTid_updates (frame : List Byte) (sent : Word16) (s : State) : Updates s (checkTid frame sent s) := by
  unfold checkTid
  split
  · exact .refl
  · exact .single (.log s _)

theorem r2tRsp_updates {m : Nat} {s t : State} (h : r2tRsp m s = .next t) : Updates s t := by
  obtain ⟨⟨-, hcap⟩, -, frame, hf, rfl⟩ := r2tRsp_eq_next h
  have hl := Buffer.slice_length hf
  have hb : (rtuFrame (frame.drop 6)).length ≤ Config.txCap := by
    simp only [rtuFrame_length, List.length_drop, Config.cap, Config.txCap] at *; omega
  exact ((checkTid_updates frame s.sentTid s).tail (.crc _ _)).tail (.stage _ _ (by simp) hb)

/-- The conversion of a T2R request leaves what its response needs. -/
theorem t2rReq_served {n : Nat} {s t : State} (hd : s.dir = .t2r) (h : t2rReq n s = .next t) : Served t := by
  obtain ⟨-, -, frame, -, rfl⟩ := t2rReq_eq_next h
  exact ⟨by simp, fun _ => ⟨rfl, rfl, rfl⟩, fun hr => absurd (hd.symm.trans hr) (by decide)⟩

/-- The conversion of an R2T request leaves what its response needs. -/
theorem r2tReq_served {n : Nat} {s t : State} (hd : s.dir = .r2t) (h : r2tReq n s = .next t) : Served t := by
  obtain ⟨-, -, body, -, rfl⟩ := r2tReq_eq_next h
  exact ⟨by simp; omega, fun hr => absurd (hd.symm.trans hr) (by decide), fun _ => rfl⟩

/-! ### The state rules -/

/-- `advance` with the next CSTATE under its own name, as the state rules write it. -/
theorem CycleStep.advance_to {s u : State} {c : CState} (hu : Updates s u) (hs : s.cstate ≠ .closed)
    (hc : c = succState s.cstate) (hserved : s.cstate = .awaitMasterRequest → Served u) : CycleStep s (u.setCState c) :=
  hc ▸ .advance u hu hs hserved

/-- A reading state: the reader's success is converted and CSTATE advances, Timeout keeps the state, the rest tears down. -/
theorem CycleStep.of_read {s t : State} {x : Host.Outcome (ReadOutcome × State) Fault Refusal} {k : Nat → State → Out}
    {c : CState} (hx : ∀ p, x = .next p → Updates s p.2) (hr : reading s.cstate) (hc : c = succState s.cstate)
    (hk : ∀ n p u, x = .next p → k n p.2 = .next u → Updates p.2 u ∧ (s.cstate = .awaitMasterRequest → Served u))
    (h : andThen x (afterRead fun n v => andThen (k n v) fun u => .next (u.setCState c)) = .next t) : CycleStep s t := by
  obtain ⟨p, hp, h⟩ := andThen_eq_next h
  have hup := hx p hp
  unfold afterRead at h
  split at h
  · obtain ⟨u, hu, h⟩ := andThen_eq_next h
    obtain ⟨hconv, hserved⟩ := hk _ p u hp hu
    cases h
    exact .advance_to (hup.trans hconv) (by rcases hr with hr | hr <;> simp [hr]) hc hserved
  · cases h
    exact .again _ hup hr
  · rw [teardown_tornDown h]
    exact .close _ hup

/-- A forwarding state: on Ok some registers are updated and CSTATE advances, on a fault the pair is torn down. -/
theorem CycleStep.of_send {s f t : State} {l : LinkId} {k : State → State} {c : CState} (hf : Updates s f)
    (hs : midExchange s.cstate = true) (hc : c = succState s.cstate) (hk : ∀ u, Updates u (k u))
    (h : andThen (sendStaged l f) (afterSend fun u => .next ((k u).setCState c)) = .next t) : CycleStep s t := by
  obtain ⟨p, hp, h⟩ := andThen_eq_next h
  have hup := hf.trans (sendStaged_updates hp)
  unfold afterSend at h
  split at h
  · cases h
    exact .advance_to (hup.trans (hk _)) (fun hn => by simp [hn, midExchange] at hs) hc
      (fun hn => by simp [hn, midExchange] at hs)
  · rw [teardown_tornDown h]
    exact .close _ hup

/-- The Idle rule, in either direction. -/
theorem CycleStep.of_idle {s : State} (hc : s.cstate = .idle) : CycleStep s (s.setCState .awaitMasterRequest) :=
  .advance_to .refl (by simp [hc]) (by simp [hc, succState]) (by simp [hc])

theorem stepT2r_cycleStep {s t : State} (hd : s.dir = .t2r) (h : stepT2r s = .next t) : CycleStep s t := by
  cases hc : s.cstate <;> simp only [stepT2r, hc, reduceCtorEq] at h
  case idle =>
    cases h
    exact .of_idle hc
  case awaitMasterRequest =>
    refine .of_read (fun _ => rdMbap_updates) (.inl hc) (by simp [hc, succState]) (fun n p u hp hu => ?_) h
    exact ⟨t2rReq_updates hu, fun _ => t2rReq_served ((rdMbap_updates hp).dir.trans hd) hu⟩
  case forwardToSlave =>
    obtain ⟨f, hf, h⟩ := andThen_eq_next h
    exact .of_send (flushSlave_updates hf) (by simp [hc, midExchange]) (by simp [hc, succState]) (fun _ => .refl) h
  case awaitSlaveResponse =>
    refine .of_read (fun _ => rdRtu_updates) (.inr hc) (by simp [hc, succState]) (fun n p u _ hu => ?_) h
    exact ⟨t2rRsp_updates hu, by simp [hc]⟩
  case forwardToMaster => exact .of_send .refl (by simp [hc, midExchange]) (by simp [hc, succState]) (fun _ => .refl) h

theorem stepR2t_cycleStep {s t : State} (hd : s.dir = .r2t) (h : stepR2t s = .next t) : CycleStep s t := by
  cases hc : s.cstate <;> simp only [stepR2t, hc, reduceCtorEq] at h
  case idle =>
    cases h
    exact .of_idle hc
  case awaitMasterRequest =>
    refine .of_read (fun _ => rdRtu_updates) (.inl hc) (by simp [hc, succState]) (fun n p u hp hu => ?_) h
    exact ⟨r2tReq_updates hu, fun _ => r2tReq_served ((rdRtu_updates hp).dir.trans hd) hu⟩
  case forwardToSlave =>
    exact .of_send .refl (by simp [hc, midExchange]) (by simp [hc, succState])
      (k := fun u => u.setTxid (u.txid + 1#16)) (fun u => .single (.txid u _)) h
  case awaitSlaveResponse =>
    refine .of_read (fun _ => rdMbap_updates) (.inr hc) (by simp [hc, succState]) (fun n p u _ hu => ?_) h
    exact ⟨r2tRsp_updates hu, by simp [hc]⟩
  case forwardToMaster => exact .of_send .refl (by simp [hc, midExchange]) (by simp [hc, succState]) (fun _ => .refl) h

/-! ### Every instruction, and the step -/

/-- A meaning that only hands something back. -/
theorem updates_of_result {s t : State} {r : OpResult} (h : (.next (s.setResult r) : Out) = .next t) : Updates s t := by
  cases h
  exact .single (.result s r)

/-- A meaning that ends by handing something back. -/
theorem updates_of_andThen {α : Type} {s t : State} {x : Host.Outcome α Fault Refusal} {f : α → State} {r : α → OpResult}
    (hx : ∀ a, x = .next a → Updates s (f a)) (h : andThen x (fun a => .next ((f a).setResult (r a))) = .next t) :
    Updates s t := by
  obtain ⟨a, ha, h⟩ := andThen_eq_next h
  exact (hx a ha).trans (updates_of_result h)

/-- A meaning made under a condition. -/
theorem updates_of_ite {s t : State} {c : Prop} [Decidable c] {x y : Out} (hx : x = .next t → Updates s t)
    (hy : y = .next t → Updates s t) (h : (if c then x else y) = .next t) : Updates s t := by
  split at h
  · exact hx h
  · exact hy h

/-- Everything an instruction can do: updates that keep CSTATE, or, for the three that may move it, one state rule. -/
theorem exec_eq_next {i : Instr} {s t : State} (h : exec i s = .next t) :
    Updates s t ∨ MovesCState i ∧ ∃ u, CycleStep s u ∧ t = u.setResult .none := by
  have refused : ∀ {r : Refusal}, (.refused r : Out) = .next t → Updates s t := fun h => by cases h
  cases i with
  | crc16 bytes => exact .inl ((Relation.ReflTransGen.single (.crc s _)).trans (updates_of_result h))
  | be16 bytes off => exact .inl (updates_of_ite updates_of_result refused h)
  | be32 bytes off => exact .inl (updates_of_ite updates_of_result refused h)
  | be64 bytes off => exact .inl (updates_of_ite updates_of_result refused h)
  | rdmbap l cap => exact .inl (updates_of_andThen (fun _ => rdMbap_updates) h)
  | rdrtu l cap exp => exact .inl (updates_of_andThen (fun _ => rdRtu_updates) h)
  | est fc q => exact .inl (updates_of_result h)
  | t2rReq n => exact .inl (updates_of_andThen (fun _ => t2rReq_updates) h)
  | t2rRsp m => exact .inl (updates_of_andThen (fun _ => t2rRsp_updates) h)
  | r2tReq n => exact .inl (updates_of_andThen (fun _ => r2tReq_updates) h)
  | r2tRsp m => exact .inl (updates_of_andThen (fun _ => r2tRsp_updates) h)
  | flush => exact .inl (updates_of_andThen (fun _ => flushSlave_updates) h)
  | send l => exact .inl (updates_of_andThen (fun _ => sendStaged_updates) h)
  | teardown o =>
    obtain ⟨u, hu, h⟩ := andThen_eq_next h
    cases h
    exact .inr ⟨.inr (.inr ⟨o, rfl⟩), u, teardown_tornDown hu ▸ .close s .refl, rfl⟩
  | cycT2r =>
    simp only [exec, execCycT2r] at h
    split at h
    · obtain ⟨u, hu, h⟩ := andThen_eq_next h
      cases h
      exact .inr ⟨.inl rfl, u, stepT2r_cycleStep ‹_› hu, rfl⟩
    · cases h
  | cycR2t =>
    simp only [exec, execCycR2t] at h
    split at h
    · obtain ⟨u, hu, h⟩ := andThen_eq_next h
      cases h
      exact .inr ⟨.inr (.inl rfl), u, stepR2t_cycleStep ‹_› hu, rfl⟩
    · cases h
  | estFc01 q => exact .inl (updates_of_result h)
  | estFc02 q => exact .inl (updates_of_result h)
  | estFc03 q => exact .inl (updates_of_result h)
  | estFc04 q => exact .inl (updates_of_result h)
  | estFc05 q => exact .inl (updates_of_result h)
  | estFc06 q => exact .inl (updates_of_result h)
  | estFc0F q => exact .inl (updates_of_result h)
  | estFc10 q => exact .inl (updates_of_result h)
  | estOther fc q => exact .inl (updates_of_ite refused updates_of_result h)

theorem fetch_updates (s : State) : Updates s (fetch s).2 := by
  unfold fetch
  split
  · exact .single (.taken s _)
  · exact .refl

/-- A step that answers runs an instruction on the state the fetch leaves, outside Closed. -/
theorem step_eq_next {s t : State} (h : step s = .next t) :
    s.cstate ≠ .closed ∧ ∃ i, decode (fetch s).1 = .ok i ∧ exec i (fetch s).2 = .next t := by
  unfold step at h
  split at h
  · cases h
  · split at h
    · next i hi => exact ⟨‹_›, i, hi, h⟩
    · cases h

/-- With nothing handed over a step outside Closed is one state rule of the direction CFG selects. -/
theorem step_sequencer {s : State} (hi : s.issue = []) (hc : s.cstate ≠ .closed) : step s =
    andThen (if s.dir = .t2r then stepT2r s else stepR2t s) fun t => .next (t.setResult .none) := by
  cases hd : s.dir <;> simp only [step, if_neg hc, fetch, hi, hd] <;>
    simp [decode, encode, cycleOf, decodeCmd, exec, execCycT2r, execCycR2t, hd]

theorem sequencer_cycleStep {s u : State} (h : (if s.dir = .t2r then stepT2r s else stepR2t s) = .next u) :
    CycleStep s u := by
  cases hd : s.dir <;> simp only [hd, if_true, if_false, reduceCtorEq] at h
  · exact stepT2r_cycleStep hd h
  · exact stepR2t_cycleStep hd h

end Sys2Proof.Machine
end

section
/-! SUPPORT. What every step keeps: CFG, the latch of `cancel`, LOG and WARN, and the invariant `Inv`. -/

namespace Sys2Proof.Machine

open Sys2Proof.Spec

/-! ### CFG, `cancel`, LOG and WARN -/

/-- What holds of any two states one after the other in a run (10_state R28 to R31). -/
structure RunKeeps (s t : State) : Prop where
  dir : t.dir = s.dir
  cancel : s.env.cancel = true → t.env.cancel = true
  log : s.log <+: t.log
  warn : t.warn &&& s.warn = s.warn

theorem RunKeeps.refl (s : State) : RunKeeps s s := ⟨rfl, id, List.prefix_rfl, BitVec.and_self⟩

theorem RunKeeps.trans {s t u : State} (h : RunKeeps s t) (k : RunKeeps t u) : RunKeeps s u where
  dir := k.dir.trans h.dir
  cancel := fun hc => k.cancel (h.cancel hc)
  log := h.log.trans k.log
  warn := by rw [← h.warn, ← BitVec.and_assoc, k.warn]

/-- A bit set stays set under a bitwise or. -/
theorem or_and_left_eq (w b : BitVec 2) : (w ||| b) &&& w = w :=
  BitVec.eq_of_getElem_eq fun i hi => by
    rw [BitVec.getElem_and, BitVec.getElem_or]
    cases w[i] <;> simp

/-- Only a log event and a change of the environment touch what a run keeps. -/
theorem Update.runKeeps {s t : State} (h : Update s t) : RunKeeps s t := by
  cases h with
  | log e => exact ⟨rfl, id, List.prefix_append _ _, or_and_left_eq _ _⟩
  | env e _ hc => exact ⟨rfl, hc, List.prefix_rfl, BitVec.and_self⟩
  | _ => exact ⟨rfl, id, List.prefix_rfl, BitVec.and_self⟩

theorem Updates.runKeeps {s t : State} (h : Updates s t) : RunKeeps s t := by
  induction h with
  | refl => exact .refl s
  | tail _ hu ih => exact ih.trans hu.runKeeps

theorem CycleStep.runKeeps {s t : State} (h : CycleStep s t) : RunKeeps s t := by
  cases h with
  | advance u hu _ _ => exact hu.runKeeps.trans ⟨rfl, id, List.prefix_rfl, BitVec.and_self⟩
  | again _ hu _ => exact hu.runKeeps
  | close u hu => exact hu.runKeeps.trans ⟨rfl, id, List.prefix_rfl, BitVec.and_self⟩

theorem exec_runKeeps {i : Instr} {s t : State} (h : exec i s = .next t) : RunKeeps s t := by
  rcases exec_eq_next h with hu | ⟨-, u, hu, rfl⟩
  · exact hu.runKeeps
  · exact hu.runKeeps.trans (Update.result u .none).runKeeps

theorem step_runKeeps {s t : State} (h : step s = .next t) : RunKeeps s t := by
  obtain ⟨-, i, -, hi⟩ := step_eq_next h
  exact (fetch_updates s).runKeeps.trans (exec_runKeeps hi)

/-! ### The invariant -/

/-- An event logged sets the WARN bit that mirrors it. -/
theorem Inv.logEvent {s : State} (hi : Inv s) (e : LogEvent) : Inv (s.logEvent e) :=
  { hi with
    warn_crc := by
      rw [State.logEvent_warn, BitVec.getLsbD_or, hi.warn_crc]
      cases e <;> simp [LogEvent.warnBit]
    warn_tid := by
      rw [State.logEvent_warn, BitVec.getLsbD_or, hi.warn_tid]
      cases e <;> simp [LogEvent.warnBit] }

theorem Inv.setOutcome {s : State} (hi : Inv s) {o : ReadOutcome} (ho : ∀ n, o = .success n → n ≤ Config.cap) :
    Inv (s.setOutcome o) :=
  { hi with outcome_len := ho }

theorem Inv.setEnv {s : State} (hi : Inv s) {e : Env} (ho : ∀ m, (e.link m).isOpen = (s.env.link m).isOpen) :
    Inv (s.setEnv e) :=
  { hi with
    master_open := (ho .M).trans hi.master_open
    slave_open := (ho .S).trans hi.slave_open }

/-- A chunk appended inside the capacity fills RXB up to the new RXLEN. -/
theorem Inv.append {s : State} (hi : Inv s) {c : List Byte} (hc : s.rxlen + c.length ≤ Config.cap) : Inv (s.append c) :=
  { hi with
    rxlen_le := hc
    rxb_wf := Buffer.putAll_wf c hi.rxb_wf hc
    rxb_held := fun i hin => by
      by_cases hlt : i < s.rxlen
      · rw [State.append_rxb, Buffer.get_putAll_outside c _ (.inl hlt)]
        exact hi.rxb_held i hlt
      · simp only [State.append_rxlen] at hin
        rw [State.append_rxb, Buffer.get_putAll_inside c _ (by omega) hin]
        simp; omega }

/-- A frame staged inside the capacity fills TXB up to the new TXLEN. -/
theorem Inv.stageFrame {s : State} (hi : Inv s) {frame : List Byte} (h1 : 1 ≤ frame.length)
    (hc : frame.length ≤ Config.txCap) : Inv (s.stageFrame frame) :=
  { hi with
    txlen_le := hc
    txb_wf := Buffer.putAll_wf frame hi.txb_wf (by omega)
    txb_held := fun i hin => Buffer.held_of_slice (Buffer.slice_putAll 0 frame s.txb) hin
    staged := fun _ => h1 }

/-- Every atomic update keeps a good state good. -/
theorem Update.inv {s t : State} (h : Update s t) (hi : Inv s) : Inv t := by
  cases h with
  | log e => exact hi.logEvent e
  | outcome o ho => exact hi.setOutcome ho
  | env e ho _ => exact hi.setEnv ho
  | restart => exact { hi with rxlen_le := Nat.zero_le _, rxb_held := fun i hin => absurd hin (Nat.not_lt_zero i) }
  | append c hc => exact hi.append hc
  | stage frame h1 hc => exact hi.stageFrame h1 hc
  | ids tid pid => exact { hi with saved := fun hd hm => ⟨rfl, rfl, (hi.saved hd hm).2.2⟩ }
  | explen e => exact { hi with saved := fun hd hm => ⟨(hi.saved hd hm).1, (hi.saved hd hm).2.1, rfl⟩ }
  | sentTid v => exact { hi with sent := fun _ _ => rfl }
  | result r => exact { hi with }
  | crc v => exact { hi with }
  | txid v => exact { hi with }
  | taken rest => exact { hi with }

theorem Updates.inv {s t : State} (h : Updates s t) (hi : Inv s) : Inv t := by
  induction h with
  | refl => exact hi
  | tail _ hu ih => exact hu.inv ih

/-- A good state in the middle of an exchange has what the exchange needs. -/
theorem Inv.served {s : State} (hi : Inv s) (hm : midExchange s.cstate = true) : Served s :=
  ⟨hi.staged hm, fun hd => hi.saved hd hm, fun hd => hi.sent hd hm⟩

/-- CSTATE moves outside Closed, into an exchange only with what the exchange needs. -/
theorem Inv.setCState {s : State} (hi : Inv s) {c : CState} (hs : s.cstate ≠ .closed) (hc : c ≠ .closed)
    (hm : midExchange c = true → Served s) : Inv (s.setCState c) :=
  { hi with
    master_open := by simpa [hs, hc] using hi.master_open
    slave_open := by simpa [hs, hc] using hi.slave_open
    staged := fun h => (hm h).staged
    saved := fun hd h => (hm h).saved hd
    sent := fun hd h => (hm h).sent hd }

theorem Inv.tornDown {s : State} (hi : Inv s) : Inv (tornDown s) :=
  { hi with
    master_open := rfl
    slave_open := rfl
    staged := fun h => by cases h
    saved := fun _ h => by cases h
    sent := fun _ h => by cases h }

/-- The loop enters an exchange only from AwaitMasterRequest. -/
theorem midExchange_of_succState {c : CState} (h : midExchange (succState c) = true) :
    c = .awaitMasterRequest ∨ midExchange c = true := by
  cases c <;> simp_all [succState, midExchange]

theorem succState_ne_closed {c : CState} (h : c ≠ .closed) : succState c ≠ .closed := by
  cases c <;> simp_all [succState]

theorem CycleStep.inv {s t : State} (h : CycleStep s t) (hi : Inv s) : Inv t := by
  cases h with
  | advance u hu hs hserved =>
    refine (hu.inv hi).setCState (hu.cstate ▸ hs) (succState_ne_closed hs) fun hm => ?_
    rcases midExchange_of_succState hm with ha | hx
    · exact hserved ha
    · exact (hu.inv hi).served (hu.cstate ▸ hx)
  | again _ hu _ => exact hu.inv hi
  | close u hu => exact (hu.inv hi).tornDown

theorem exec_inv {i : Instr} {s t : State} (hi : Inv s) (h : exec i s = .next t) : Inv t := by
  rcases exec_eq_next h with hu | ⟨-, u, hu, rfl⟩
  · exact hu.inv hi
  · exact (Update.result u .none).inv (hu.inv hi)

theorem step_inv {s t : State} (hi : Inv s) (h : step s = .next t) : Inv t := by
  obtain ⟨-, i, -, he⟩ := step_eq_next h
  exact exec_inv ((fetch_updates s).inv hi) he

theorem resetOutcome_len (n : Nat) (h : resetOutcome = .success n) : n ≤ Config.cap := by
  unfold resetOutcome at h
  split at h <;> cases h
  exact Nat.min_le_right _ _

theorem resetFor_inv (d : Dir) : Inv (State.resetFor d) where
  rxlen_le := Nat.zero_le _
  txlen_le := Nat.zero_le _
  rxb_wf := ⟨.nil, fun _ h => absurd h List.not_mem_nil⟩
  txb_wf := ⟨.nil, fun _ h => absurd h List.not_mem_nil⟩
  rxb_held := fun i h => absurd h (Nat.not_lt_zero i)
  txb_held := fun i h => absurd h (Nat.not_lt_zero i)
  outcome_len := resetOutcome_len
  warn_crc := by simp [State.resetFor]
  warn_tid := by simp [State.resetFor]
  master_open := rfl
  slave_open := rfl
  staged := fun h => by cases h
  saved := fun _ h => by cases h
  sent := fun _ h => by cases h

/-! ### Where CSTATE moves -/

/-- A state rule goes on along the loop, keeps a reading state, or closes. -/
theorem CycleStep.cstate {s t : State} (h : CycleStep s t) :
    t.cstate = succState s.cstate ∨ (t.cstate = s.cstate ∧ reading s.cstate) ∨ t.cstate = .closed := by
  cases h with
  | advance u _ _ _ => exact .inl rfl
  | again _ hu hr => exact .inr (.inl ⟨hu.cstate, hr⟩)
  | close u _ => exact .inr (.inr rfl)

theorem exec_cstate {i : Instr} {s t : State} (h : exec i s = .next t) (hne : t.cstate ≠ s.cstate) : MovesCState i := by
  rcases exec_eq_next h with hu | ⟨hm, -⟩
  · exact absurd hu.cstate hne
  · exact hm

theorem sequencer_cstate {s t : State} (hi : s.issue = []) (h : step s = .next t) :
    t.cstate = succState s.cstate ∨ (t.cstate = s.cstate ∧ reading s.cstate) ∨ t.cstate = .closed := by
  obtain ⟨hc, -⟩ := step_eq_next h
  rw [step_sequencer hi hc] at h
  obtain ⟨u, hu, h⟩ := andThen_eq_next h
  cases h
  exact (sequencer_cycleStep hu).cstate

/-! ### The statements about reset, and about what every step keeps -/

/-- Settles O8: every register of R35 as `State.resetFor` writes it. -/
theorem resetLeavesTheSpecifiedState : Obligations.ResetLeavesTheSpecifiedState :=
  ⟨rfl, fun _ => ⟨rfl, rfl, rfl, rfl, rfl, rfl, rfl, rfl, Buffer.get_nil, Buffer.get_nil⟩⟩

/-- Settles O9: the buffers are empty, and the free OUTCOME is held to its range. -/
theorem resetIsGood : Obligations.ResetIsGood := resetFor_inv

/-- Settles O10: each atomic update keeps `Inv`, and so does each way a state rule ends. -/
theorem everyStepKeepsGoodStates : Obligations.EveryStepKeepsGoodStates := fun _ _ => step_inv

/-- Settles O12: no update writes CFG. -/
theorem configurationNeverChanges : Obligations.ConfigurationNeverChanges :=
  ⟨rfl, rfl, rfl, fun _ _ h => (step_runKeeps h).dir⟩

/-- Settles O13: only a sample writes `cancel`, and a sample latches it. -/
theorem cancelNeverReturnsToZero : Obligations.CancelNeverReturnsToZero := fun _ _ h => (step_runKeeps h).cancel

/-- Settles O14: only a log event writes WARN and LOG, one by a bitwise or, the other by an append. -/
theorem warningsAreStickyAndLogOnlyGrows : Obligations.WarningsAreStickyAndLogOnlyGrows :=
  fun _ _ _ h => ⟨(exec_runKeeps h).log, (exec_runKeeps h).warn⟩

/-- Settles O15: the updates keep CSTATE, and a state rule ends in one of three ways. -/
theorem sequencerStateMovesOnlyInItsLoop : Obligations.SequencerStateMovesOnlyInItsLoop :=
  ⟨fun _ _ _ => exec_cstate, fun _ _ => sequencer_cstate⟩

end Sys2Proof.Machine
end

section
/-! SUPPORT. From a good state the sequencer answers: each operation a state rule issues finds its link open, its bytes held and
its length in range, but for an RTU frame of one byte (93 U7). -/

namespace Sys2Proof.Machine

open Sys2Proof.Spec

/-- A next state, or the one refusal a received frame can cause. -/
def AnswersOrShort (o : Out) : Prop := (∃ t, o = .next t) ∨ o = .refused (.shortRtuFrame 1)

theorem AnswersOrShort.andThen_next {x : Out} (f : State → State) (h : AnswersOrShort x) :
    AnswersOrShort (andThen x fun u => .next (f u)) := by
  rcases h with ⟨t, rfl⟩ | rfl
  · exact .inl ⟨_, rfl⟩
  · exact .inr rfl

theorem AnswersOrShort.safeAnswer {o : Out} (h : AnswersOrShort o) (hi : ∀ t, o = .next t → Inv t) : SafeAnswer o := by
  rcases h with ⟨t, rfl⟩ | rfl
  · exact hi t rfl
  · rfl

/-! ### What a good state gives the operations -/

theorem Inv.isOpen {s : State} (hi : Inv s) (hc : s.cstate ≠ .closed) (l : LinkId) : (s.env.link l).isOpen = true := by
  cases l
  · exact hi.master_open.trans (decide_eq_true hc)
  · exact hi.slave_open.trans (decide_eq_true hc)

theorem Inv.slice_rxb {s : State} (hi : Inv s) {n : Nat} (hn : n ≤ s.rxlen) : ∃ bs, Buffer.slice s.rxb 0 n = some bs :=
  Buffer.slice_isSome fun i hin => by rw [Nat.zero_add]; exact hi.rxb_held i (by omega)

theorem Inv.slice_txb {s : State} (hi : Inv s) : ∃ bs, Buffer.slice s.txb 0 s.txlen = some bs :=
  Buffer.slice_isSome fun i hin => by rw [Nat.zero_add]; exact hi.txb_held i hin

theorem teardown_answers {o : FatalOutcome} {s : State} (hi : Inv s) (hc : s.cstate ≠ .closed) :
    AnswersOrShort (teardown o s) :=
  .inl ⟨_, teardown_of_open (hi.isOpen hc .M) (hi.isOpen hc .S)⟩

/-- A forwarding state answers: a frame is staged and the link is open. -/
theorem forward_answers {s : State} (l : LinkId) (k : State → State) (hi : Inv s) (hm : midExchange s.cstate = true) :
    AnswersOrShort (andThen (sendStaged l s) (afterSend fun u => .next (k u))) := by
  have hc : s.cstate ≠ .closed := fun h => by simp [h, midExchange] at hm
  obtain ⟨frame, hf⟩ := hi.slice_txb
  have hsend := sendStaged_of_held (hi.staged hm) hi.txlen_le (hi.isOpen hc l) hf
  have hup := sendStaged_updates hsend
  rw [hsend, andThen_next]
  unfold afterSend
  split
  · exact .inl ⟨_, rfl⟩
  · exact teardown_answers (hup.inv hi) (hup.cstate ▸ hc)

/-- A reading state answers when the conversion of every frame the reader returns does. -/
theorem reading_answers {s : State} {x : Host.Outcome (ReadOutcome × State) Fault Refusal} {k : Nat → State → Out} (c : CState)
    (hi : Inv s) (hc : s.cstate ≠ .closed) (hx : ∃ p, x = .next p) (hup : ∀ p, x = .next p → Updates s p.2)
    (hk : ∀ n p, x = .next p → p.1 = .success n → Inv p.2 → AnswersOrShort (k n p.2)) :
    AnswersOrShort (andThen x (afterRead fun n v => andThen (k n v) fun u => .next (u.setCState c))) := by
  obtain ⟨p, hp⟩ := hx
  have hinv := (hup p hp).inv hi
  have hk := fun n hn => hk n p hp hn hinv
  rw [hp, andThen_next]
  unfold afterRead
  split
  · exact (hk _ ‹_›).andThen_next _
  · exact .inl ⟨_, rfl⟩
  · exact teardown_answers hinv ((hup p hp).cstate ▸ hc)

/-! ### The lengths the readers return are lengths the converters take -/

theorem rdMbap_success {l : LinkId} {cap n : Nat} {s : State} {p : ReadOutcome × State} (h : rdMbap l cap s = .next p)
    (hn : p.1 = .success n) : n = p.2.rxlen ∧ 7 ≤ n := by
  obtain ⟨-, u, t, hu, -, hv⟩ := readFrame_success mbapVerdict_keepsFrame h hn
  exact hu ▸ mbapVerdict_success hv

theorem rdRtu_success {l : LinkId} {cap n : Nat} {exp : Expectation} {s : State} {p : ReadOutcome × State}
    (h : rdRtu l cap exp s = .next p) (hn : p.1 = .success n) : n = p.2.rxlen ∧ (n = 1 ∨ 3 ≤ n) := by
  obtain ⟨-, u, t, hu, hpos, hv⟩ := readFrame_success (rtuVerdict_keepsFrame l exp) h hn
  obtain ⟨rfl, h2⟩ := rtuVerdict_success hv
  exact ⟨hu, by omega⟩

theorem mbap_reading_answers {s : State} (l : LinkId) {k : Nat → State → Out} (c : CState) (hi : Inv s)
    (hc : s.cstate ≠ .closed)
    (hk : ∀ n t frame, 7 ≤ n → n ≤ Config.cap → n ≤ t.rxlen → Buffer.slice t.rxb 0 n = some frame → ∃ u, k n t = .next u) :
    AnswersOrShort (andThen (rdMbap l Config.cap s)
      (afterRead fun n v => andThen (k n v) fun u => .next (u.setCState c))) := by
  refine reading_answers c hi hc (readFrame_of_open _ le_rfl (hi.isOpen hc l)) (fun _ => rdMbap_updates) ?_
  intro n p hp hn hinv
  obtain ⟨rfl, h7⟩ := rdMbap_success hp hn
  obtain ⟨frame, hf⟩ := hinv.slice_rxb le_rfl
  exact .inl (hk _ _ frame h7 hinv.rxlen_le le_rfl hf)

theorem rtu_reading_answers {s : State} (l : LinkId) (exp : Expectation) {k : Nat → State → Out} (c : CState) (hi : Inv s)
    (hc : s.cstate ≠ .closed) (h1 : ∀ t, k 1 t = .refused (.shortRtuFrame 1))
    (hk : ∀ n t body, 3 ≤ n → n ≤ Config.cap → n - 2 ≤ t.rxlen → Buffer.slice t.rxb 0 (n - 2) = some body →
      ∃ u, k n t = .next u) :
    AnswersOrShort (andThen (rdRtu l Config.cap exp s)
      (afterRead fun n v => andThen (k n v) fun u => .next (u.setCState c))) := by
  refine reading_answers c hi hc (readFrame_of_open _ le_rfl (hi.isOpen hc l)) (fun _ => rdRtu_updates) ?_
  intro n p hp hn hinv
  obtain ⟨hlen, rfl | h3⟩ := rdRtu_success hp hn
  · exact .inr (h1 p.2)
  · subst hlen
    obtain ⟨body, hb⟩ := hinv.slice_rxb (Nat.sub_le p.2.rxlen 2)
    exact .inl (hk _ _ body h3 hinv.rxlen_le (Nat.sub_le _ _) hb)

/-! ### The state rules answer -/

theorem stepT2r_answers {s : State} (hi : Inv s) (hc : s.cstate ≠ .closed) : AnswersOrShort (stepT2r s) := by
  cases hs : s.cstate <;> simp only [stepT2r, hs]
  case idle => exact .inl ⟨_, rfl⟩
  case awaitMasterRequest => exact mbap_reading_answers .M _ hi hc fun _ _ _ => t2rReq_of_held
  case forwardToSlave =>
    have hflush := flushSlave_of_open (hi.isOpen hc .S)
    have hup := flushSlave_updates hflush
    rw [t2rForwardSlave, hflush, andThen_next]
    exact forward_answers .S _ (hup.inv hi) (by simp [hs, midExchange])
  case awaitSlaveResponse => exact rtu_reading_answers .S _ _ hi hc (fun _ => rfl) fun _ _ _ => t2rRsp_of_held
  case forwardToMaster => exact forward_answers .M _ hi (by simp [hs, midExchange])
  case closed => exact absurd hs hc

theorem stepR2t_answers {s : State} (hi : Inv s) (hc : s.cstate ≠ .closed) : AnswersOrShort (stepR2t s) := by
  cases hs : s.cstate <;> simp only [stepR2t, hs]
  case idle => exact .inl ⟨_, rfl⟩
  case awaitMasterRequest => exact rtu_reading_answers .M _ _ hi hc (fun _ => rfl) fun _ _ _ => r2tReq_of_held
  case forwardToSlave => exact forward_answers .S _ hi (by simp [hs, midExchange])
  case awaitSlaveResponse => exact mbap_reading_answers .S _ hi hc fun _ _ _ => r2tRsp_of_held
  case forwardToMaster => exact forward_answers .M _ hi (by simp [hs, midExchange])
  case closed => exact absurd hs hc

theorem sequencer_answers {s : State} (hi : Inv s) (hissue : s.issue = []) (hc : s.cstate ≠ .closed) :
    AnswersOrShort (step s) := by
  rw [step_sequencer hissue hc]
  refine AnswersOrShort.andThen_next _ ?_
  split
  · exact stepT2r_answers hi hc
  · exact stepR2t_answers hi hc

/-- Settles O11: every operation of a state rule answers, and O10 makes the next state good. -/
theorem sequencerNeverStuckFromGoodStates : Obligations.SequencerNeverStuckFromGoodStates :=
  fun _ hi hissue hc => (sequencer_answers hi hissue hc).safeAnswer fun _ => step_inv hi

end Sys2Proof.Machine
end

section
/-! SUPPORT. Two runs of one operation, from a state and from the state with other values in the registers no rule has written
yet: each operation the sequencer issues answers the same in both, up to those registers (10_state R19). -/

namespace Sys2Proof.Machine

open Sys2Proof.Spec

/-- An answer with its next value changed; a fault and a refusal as they are. -/
def mapNext {α β : Type} (f : α → β) : Host.Outcome α Fault Refusal → Host.Outcome β Fault Refusal
  | .next a => .next (f a)
  | .fault r => .fault r
  | .refused r => .refused r

/-- Two runs of a sequence, step by step. -/
theorem andThen_mapNext {α β γ δ : Type} {f : α → β} {g : γ → δ} {x : Host.Outcome α Fault Refusal}
    {x' : Host.Outcome β Fault Refusal} {k : α → Host.Outcome γ Fault Refusal} {k' : β → Host.Outcome δ Fault Refusal}
    (hx : x' = mapNext f x) (hk : ∀ a, x = .next a → k' (f a) = mapNext g (k a)) :
    andThen x' k' = mapNext g (andThen x k) := by
  subst hx
  cases x with
  | next a => exact hk a rfl
  | fault r => rfl
  | refused r => rfl

/-- Two runs of a sequence that begins with the same read. -/
theorem andThen_mapNext_read {α γ δ : Type} {g : γ → δ} {x : Host.Outcome α Fault Refusal}
    {k : α → Host.Outcome γ Fault Refusal} {k' : α → Host.Outcome δ Fault Refusal} (hk : ∀ a, k' a = mapNext g (k a)) :
    andThen x k' = mapNext g (andThen x k) := by
  cases x with
  | next a => exact hk a
  | fault r => rfl
  | refused r => rfl

/-! ### The other values and the state they stand in -/

section Into

variable (v : Unspecified) (s : State)

@[simp] theorem into_dir : (v.into s).dir = s.dir := rfl
@[simp] theorem into_cstate : (v.into s).cstate = s.cstate := rfl
@[simp] theorem into_rxlen : (v.into s).rxlen = s.rxlen := rfl
@[simp] theorem into_env : (v.into s).env = s.env := rfl

theorem into_savedTid (h : s.written.savedTid = true) : (v.into s).savedTid = s.savedTid := if_pos h
theorem into_savedPid (h : s.written.savedPid = true) : (v.into s).savedPid = s.savedPid := if_pos h
theorem into_sentTid (h : s.written.sentTid = true) : (v.into s).sentTid = s.sentTid := if_pos h
theorem into_explen (h : s.written.explen = true) : (v.into s).explen = s.explen := if_pos h

@[simp] theorem into_setCState (c : CState) : (v.into s).setCState c = v.into (s.setCState c) := rfl
@[simp] theorem into_setResult (r : OpResult) : (v.into s).setResult r = v.into (s.setResult r) := rfl
@[simp] theorem into_setEnv (e : Env) : (v.into s).setEnv e = v.into (s.setEnv e) := rfl
@[simp] theorem into_setRxlen (n : Nat) : (v.into s).setRxlen n = v.into (s.setRxlen n) := rfl
@[simp] theorem into_append (c : List Byte) : (v.into s).append c = v.into (s.append c) := rfl
@[simp] theorem into_setCrc (w : Word16) : (v.into s).setCrc w = v.into (s.setCrc w) := rfl
@[simp] theorem into_saveIds (tid pid : Word16) : (v.into s).saveIds tid pid = v.into (s.saveIds tid pid) := rfl
@[simp] theorem into_setExplen (e : Expectation) : (v.into s).setExplen e = v.into (s.setExplen e) := rfl

/-! ### The guards: none of them reads a register -/

theorem ite_mapNext {α β : Type} {f : α → β} {c : Prop} [Decidable c] {x y : Host.Outcome α Fault Refusal}
    {x' y' : Host.Outcome β Fault Refusal} (hx : x' = mapNext f x) (hy : y' = mapNext f y) :
    (if c then x' else y') = mapNext f (if c then x else y) := by
  split
  · exact hx
  · exact hy

theorem needOpen_into {α β : Type} {f : α → β} (l : LinkId) {x : Host.Outcome α Fault Refusal}
    {x' : Host.Outcome β Fault Refusal} (hx : x' = mapNext f x) : needOpen l (v.into s) x' = mapNext f (needOpen l s x) :=
  ite_mapNext hx rfl

theorem stage_into (frame : List Byte) : stage frame (v.into s) = mapNext v.into (stage frame s) := ite_mapNext rfl rfl

theorem mbapLength_into (n : Nat) {x x' : Out} (hx : x' = mapNext v.into x) :
    mbapLength n x' = mapNext v.into (mbapLength n x) := ite_mapNext hx rfl

theorem rtuLength_into (n : Nat) {x x' : Out} (hx : x' = mapNext v.into x) :
    rtuLength n x' = mapNext v.into (rtuLength n x) := ite_mapNext rfl (ite_mapNext hx rfl)

/-! ### The links -/

theorem flushSlave_into : flushSlave (v.into s) = mapNext v.into (flushSlave s) := needOpen_into v s .S rfl

theorem teardown_into (o : FatalOutcome) : teardown o (v.into s) = mapNext v.into (teardown o s) :=
  needOpen_into v s .M (needOpen_into v s .S rfl)

theorem recordSend_into (l : LinkId) (frame : List Byte) :
    recordSend l frame (v.into s) = Prod.map id v.into (recordSend l frame s) := by
  simp only [recordSend, into_env]
  split <;> rfl

theorem sendStaged_into (l : LinkId) : sendStaged l (v.into s) = mapNext (Prod.map id v.into) (sendStaged l s) :=
  ite_mapNext (needOpen_into v s l (andThen_mapNext_read fun frame => congrArg Host.Outcome.next (recordSend_into v s l frame)))
    rfl

/-! ### The readers -/

/-- A verdict that reads no unwritten register. -/
def VerdictInto (verdict : State → Option ReadOutcome × State) : Prop :=
  ∀ u, verdict (v.into u) = Prod.map id v.into (verdict u)

theorem mbapVerdict_into : VerdictInto v mbapVerdict := fun _ => rfl

theorem knownVerdict_into (e : Word18) (p : Bool) : VerdictInto v (knownVerdict e p) := fun u => by
  unfold knownVerdict
  simp only [apply_ite (Prod.map id v.into)]
  rfl

theorem unknownVerdict_into (p : Bool) : VerdictInto v (unknownVerdict p) := fun u => by
  unfold unknownVerdict
  simp only [apply_ite (Prod.map id v.into)]
  rfl

theorem rtuTests_into (exp : Expectation) (p : Bool) : VerdictInto v (rtuTests exp p) := fun u => by
  unfold rtuTests
  cases exp with
  | known e => simp only [apply_ite (Prod.map id v.into), ← knownVerdict_into v e p u]; rfl
  | unknown => simp only [apply_ite (Prod.map id v.into), ← unknownVerdict_into v p u]; rfl

theorem rtuVerdict_into (l : LinkId) (exp : Expectation) : VerdictInto v (rtuVerdict l exp) :=
  fun u => rtuTests_into v exp (u.env.pendingAnswer l) (u.setEnv (u.env.afterPending l))

theorem readLoop_into (l : LinkId) (cap : Nat) {verdict : State → Option ReadOutcome × State} (hv : VerdictInto v verdict)
    (room : Nat) : readLoop l cap verdict room (v.into s) = Prod.map id v.into (readLoop l cap verdict room s) := by
  induction room generalizing s with
  | zero => rfl
  | succ room ih =>
    simp only [readLoop, into_env, into_rxlen, into_setEnv, into_append, hv _]
    split
    · rfl
    split
    · rfl
    split
    · rfl
    · rfl
    · rfl
    · next b bs hd =>
      rcases verdict _ with ⟨_ | o, u⟩
      · exact ih u
      · rfl

theorem readFrame_into (l : LinkId) (cap : Nat) {verdict : State → Option ReadOutcome × State} (hv : VerdictInto v verdict) :
    readFrame l cap verdict (v.into s) = mapNext (Prod.map id v.into) (readFrame l cap verdict s) := by
  simp only [readFrame, into_setRxlen, readLoop_into v _ l cap hv]
  exact ite_mapNext (needOpen_into v s l rfl) rfl

theorem rdMbap_into (l : LinkId) (cap : Nat) :
    rdMbap l cap (v.into s) = mapNext (Prod.map id v.into) (rdMbap l cap s) := readFrame_into v s l cap (mbapVerdict_into v)

theorem rdRtu_into (l : LinkId) (cap : Nat) (exp : Expectation) :
    rdRtu l cap exp (v.into s) = mapNext (Prod.map id v.into) (rdRtu l cap exp s) :=
  readFrame_into v s l cap (rtuVerdict_into v l exp)

/-! ### The converter operations -/

theorem t2rReq_into (n : Nat) : t2rReq n (v.into s) = mapNext v.into (t2rReq n s) := by
  simp only [t2rReq, into_saveIds, into_setCrc]
  exact mbapLength_into v n (andThen_mapNext_read fun _ => andThen_mapNext (stage_into v _ _) fun t _ =>
    congrArg Host.Outcome.next (into_setExplen v t _))

theorem t2rRsp_into (m : Nat) (htid : s.written.savedTid = true) (hpid : s.written.savedPid = true) :
    t2rRsp m (v.into s) = mapNext v.into (t2rRsp m s) := by
  rw [t2rRsp, into_savedTid v s htid, into_savedPid v s hpid]
  exact rtuLength_into v m (andThen_mapNext_read fun _ => stage_into v s _)

theorem r2tReq_into (n : Nat) : r2tReq n (v.into s) = mapNext v.into (r2tReq n s) :=
  rtuLength_into v n (andThen_mapNext_read fun _ => stage_into v (s.setSentTid s.txid) _)

theorem checkTid_into (frame : List Byte) (sent : Word16) :
    checkTid frame sent (v.into s) = v.into (checkTid frame sent s) := by
  unfold checkTid
  split <;> rfl

theorem r2tRsp_into (m : Nat) (htid : s.written.sentTid = true) : r2tRsp m (v.into s) = mapNext v.into (r2tRsp m s) := by
  simp only [r2tRsp, into_sentTid v s htid, checkTid_into, into_setCrc]
  exact mbapLength_into v m (andThen_mapNext_read fun _ => stage_into v _ _)

/-! ### The state rules -/

theorem reading_into {x x' : Host.Outcome (ReadOutcome × State) Fault Refusal} {k : Nat → State → Out} (c : CState)
    (hx : x' = mapNext (Prod.map id v.into) x)
    (hk : ∀ n p, x = .next p → k n (v.into p.2) = mapNext v.into (k n p.2)) :
    andThen x' (afterRead fun n t => andThen (k n t) fun u => .next (u.setCState c)) =
      mapNext v.into (andThen x (afterRead fun n t => andThen (k n t) fun u => .next (u.setCState c))) :=
  andThen_mapNext hx fun p hp => by
    obtain ⟨o, t⟩ := p
    cases o with
    | success n => exact andThen_mapNext (hk n _ hp) fun u _ => congrArg Host.Outcome.next (into_setCState v u c)
    | timeout => rfl
    | fatal o => exact teardown_into v t o

theorem forward_into (l : LinkId) (k : State → State) (hk : ∀ u, k (v.into u) = v.into (k u)) :
    andThen (sendStaged l (v.into s)) (afterSend fun u => .next (k u)) =
      mapNext v.into (andThen (sendStaged l s) (afterSend fun u => .next (k u))) :=
  andThen_mapNext (sendStaged_into v s l) fun p _ => by
    obtain ⟨a, t⟩ := p
    cases a with
    | none => exact congrArg Host.Outcome.next (hk t)
    | some a => exact teardown_into v t (.rawError a)

variable {s}

theorem stepT2r_into (hd : s.dir = .t2r) (hi : Inv s) : stepT2r (v.into s) = mapNext v.into (stepT2r s) := by
  cases hc : s.cstate <;> simp only [stepT2r, into_cstate, hc]
  case idle => rfl
  case awaitMasterRequest => exact reading_into v _ (rdMbap_into v s .M _) fun n p _ => t2rReq_into v p.2 n
  case forwardToSlave => exact andThen_mapNext (flushSlave_into v s) fun t _ => forward_into v t .S _ fun _ => rfl
  case awaitSlaveResponse =>
    obtain ⟨-, -, hexplen⟩ := hi.saved hd (by simp [hc, midExchange])
    rw [t2rAwaitSlave, into_explen v s hexplen]
    refine reading_into v _ (rdRtu_into v s .S _ _) fun m p hp => ?_
    have hup := rdRtu_updates hp
    obtain ⟨htid, hpid, -⟩ := (hup.inv hi).saved (hup.dir.trans hd) (by simp [hup.cstate, hc, midExchange])
    exact t2rRsp_into v p.2 m htid hpid
  case forwardToMaster => exact forward_into v s .M _ fun _ => rfl
  case closed => rfl

theorem stepR2t_into (hd : s.dir = .r2t) (hi : Inv s) : stepR2t (v.into s) = mapNext v.into (stepR2t s) := by
  cases hc : s.cstate <;> simp only [stepR2t, into_cstate, hc]
  case idle => rfl
  case awaitMasterRequest => exact reading_into v _ (rdRtu_into v s .M _ _) fun n p _ => r2tReq_into v p.2 n
  case forwardToSlave => exact forward_into v s .S _ fun _ => rfl
  case awaitSlaveResponse =>
    refine reading_into v _ (rdMbap_into v s .S _) fun m p hp => ?_
    have hup := rdMbap_updates hp
    exact r2tRsp_into v p.2 m ((hup.inv hi).sent (hup.dir.trans hd) (by simp [hup.cstate, hc, midExchange]))
  case forwardToMaster => exact forward_into v s .M _ fun _ => rfl
  case closed => rfl

theorem step_of_closed {s : State} (hc : s.cstate = .closed) : step s = .fault .closed := if_pos hc

/-- Two runs of the sequencer's step. -/
theorem sequencer_into (hi : Inv s) (hissue : s.issue = []) : step (v.into s) = mapNext v.into (step s) := by
  by_cases hc : s.cstate = .closed
  · rw [step_of_closed hc, step_of_closed (s := v.into s) hc]
    rfl
  · rw [step_sequencer hissue hc, step_sequencer (s := v.into s) hissue hc]
    refine andThen_mapNext ?_ fun u _ => congrArg Host.Outcome.next (into_setResult v u .none)
    cases hd : s.dir <;> simp only [into_dir, hd, if_true, if_false, reduceCtorEq]
    · exact stepT2r_into v hd hi
    · exact stepR2t_into v hd hi

end Into

/-- Settles O48: `Inv` says that a register the step reads has been written, and every other operation commutes with the other
values. -/
theorem sequencerReadsNoUnwrittenRegister : Obligations.SequencerReadsNoUnwrittenRegister := fun s v hi hissue => by
  have h := sequencer_into v hi hissue
  refine ⟨fun t ht => ?_, fun f hf => ?_, fun r hr => ?_⟩
  · rw [h, ht]; rfl
  · rw [h, hf]; rfl
  · rw [h, hr]; rfl

end Sys2Proof.Machine
end

section
/-! SUPPORT. The link port: what a read takes from the stream (20_memory R44), and the refusal of every operation on a closed link
(20_memory R43). -/

namespace Sys2Proof.Machine

open Sys2Proof.Spec

/-! ### A read and the stream -/

/-- A placed answer is the coming one. -/
theorem Env.nextAnswer_of_cons {e : Env} {l : LinkId} {a : RecvAnswer} {as : List RecvAnswer}
    (h : (e.link l).answers = a :: as) : e.nextAnswer l = a := by
  simp [Env.nextAnswer, h]

theorem Env.recvAnswer_of_cons {e : Env} {l : LinkId} {a : RecvAnswer} {as : List RecvAnswer} (max : Nat)
    (h : (e.link l).answers = a :: as) : e.recvAnswer l max = RecvAnswer.cut max a := by
  rw [Env.recvAnswer, Env.nextAnswer_of_cons h]

theorem Env.afterRecv_answers_of_cons {e : Env} {l : LinkId} {a : RecvAnswer} {as : List RecvAnswer} (max : Nat)
    (h : (e.link l).answers = a :: as) : ((e.afterRecv l max).link l).answers = RecvAnswer.leftover max a ++ as := by
  simp [Env.afterRecv_link, Env.nextAnswer_of_cons h, h]

/-- An answer that is no data is not cut, and nothing of it stays in the stream. -/
theorem RecvAnswer.cut_leftover_of_not_data {a : RecvAnswer} (max : Nat) (h : ∀ b bs, a ≠ .data b bs) :
    RecvAnswer.cut max a = a ∧ RecvAnswer.leftover max a = [] := by
  cases a with
  | data b bs => exact absurd rfl (h b bs)
  | zero => exact ⟨rfl, rfl⟩
  | timedOut => exact ⟨rfl, rfl⟩
  | fault k => exact ⟨rfl, rfl⟩

/-- What stays in the stream of a data answer reads as the bytes past the cut. -/
theorem unread_leftover_data (max : Nat) (b : Byte) (bs : List Byte) (as : List RecvAnswer) :
    unread (RecvAnswer.leftover max (.data b bs) ++ as) = bs.drop (max - 1) ++ unread as := by
  cases h : bs.drop (max - 1) with
  | nil => simp [RecvAnswer.leftover, h]
  | cons c cs => simp [RecvAnswer.leftover, h, unread]

/-- The bytes delivered, followed by what stays unread, are what was unread. -/
theorem RecvAnswer.cut_append_unread {max : Nat} {a : RecvAnswer} {b : Byte} {bs : List Byte}
    (h : RecvAnswer.cut max a = .data b bs) (as : List RecvAnswer) :
    (b :: bs) ++ unread (RecvAnswer.leftover max a ++ as) = unread (a :: as) := by
  cases a with
  | data c cs =>
    cases h
    rw [unread_leftover_data, List.cons_append, ← List.append_assoc, List.take_append_drop]
    rfl
  | zero => cases h
  | timedOut => cases h
  | fault k => cases h

/-- Settles O37: the cut and the leftover of the oldest answer are its bytes. -/
theorem receiveDeliversTheNextBytesOfTheStream : Obligations.ReceiveDeliversTheNextBytesOfTheStream := by
  intro e l max hmax hne
  obtain ⟨a, as, has⟩ := List.exists_cons_of_ne_nil hne
  rw [Env.recvAnswer_of_cons max has, Env.afterRecv_answers_of_cons max has, has]
  refine ⟨fun b bs h => ⟨RecvAnswer.cut_data h hmax, RecvAnswer.cut_append_unread h as⟩, fun a' ha' hno => ?_⟩
  cases ha'
  obtain ⟨hcut, hleft⟩ := RecvAnswer.cut_leftover_of_not_data max hno
  exact ⟨hcut, by rw [hleft]; rfl⟩

/-! ### Closed links -/

/-- A refused part refuses the whole operation, for the same reason. -/
theorem andThen_of_refused {α β : Type} {x : Host.Outcome α Fault Refusal} {k : α → Host.Outcome β Fault Refusal}
    {r : Refusal} (h : x = .refused r) : andThen x k = .refused r := by
  rw [h, andThen_refused]

theorem needOpen_of_closed {α : Type} {l : LinkId} {s : State} {x : Host.Outcome α Fault Refusal}
    (h : (s.env.link l).isOpen = false) : needOpen l s x = .refused (.linkClosed l) := by
  simp [needOpen, h]

theorem flushSlave_of_closed {s : State} (h : (s.env.link .S).isOpen = false) :
    flushSlave s = .refused (.linkClosed .S) := needOpen_of_closed h

/-- With a frame's length in range, the closed link is what refuses SEND, whatever TXB holds. -/
theorem sendStaged_of_closed {l : LinkId} {s : State} (h1 : 1 ≤ s.txlen) (h2 : s.txlen ≤ Config.txCap)
    (h : (s.env.link l).isOpen = false) : sendStaged l s = .refused (.linkClosed l) := by
  rw [sendStaged, if_pos ⟨h1, h2⟩, needOpen_of_closed h]

theorem teardown_of_master_closed {s : State} (o : FatalOutcome) (hm : (s.env.link .M).isOpen = false) :
    teardown o s = .refused (.linkClosed .M) := needOpen_of_closed hm

theorem teardown_of_slave_closed {s : State} (o : FatalOutcome) (hm : (s.env.link .M).isOpen = true)
    (hs : (s.env.link .S).isOpen = false) : teardown o s = .refused (.linkClosed .S) := by
  rw [teardown, needOpen_of_open hm, needOpen_of_closed hs]

/-- Settles O42: each operation passes on the refusal of its own guard. -/
theorem linkOperationsOnClosedLinksAreRefused : Obligations.LinkOperationsOnClosedLinksAreRefused := by
  intro s
  refine ⟨fun h => ?_, fun l h1 h2 h => ?_, fun o hm => ?_, fun o hm hs => ?_⟩
  · exact andThen_of_refused (flushSlave_of_closed h)
  · exact andThen_of_refused (sendStaged_of_closed h1 h2 h)
  · exact andThen_of_refused (teardown_of_master_closed o hm)
  · exact andThen_of_refused (teardown_of_slave_closed o hm hs)

end Sys2Proof.Machine
end

section
/-! SUPPORT. The decoder against the encoder (30_encoding R85 to R88), and what the fetch gives the step (30_encoding R86). -/

namespace Sys2Proof.Machine

open Sys2Proof.Spec

/-! ### The decoder and the encoder -/

/-- A function code with no row of its own decodes to the default row (30_encoding R88). -/
theorem decodeFc_of_not_tabled {fc : Byte} (a : Operands) (h : tabledFcs.contains fc = false) :
    decodeFc fc a = .estOther fc a.q := by
  unfold decodeFc
  split
  case h_9 => rfl
  all_goals exact absurd h (by decide)

/-- Every row decodes its own code and reads back the operands it was encoded with; only the default row of format FC needs the
instruction well-formed, because the eight rows before it take their codes. -/
theorem decode_encode {i : Instr} (h : i.wf = true) : decode (encode i) = .ok i := by
  cases i with
  | estOther fc q => exact congrArg Decoded.ok (decodeFc_of_not_tabled (fc := fc) _ (by simpa [Instr.wf] using h))
  | _ => rfl

/-- A code of format CMD that decodes is the code of the instruction's row. -/
theorem encode_of_decodeCmd {code : Byte} {a : Operands} {i : Instr} (h : decodeCmd code a = .ok i) :
    (encode i).format = .cmd ∧ (encode i).code = code := by
  unfold decodeCmd at h
  split at h <;> cases h <;> exact ⟨rfl, rfl⟩

/-- A code of format FC is the code of the row it decodes to, the default row's too. -/
theorem encode_decodeFc (code : Byte) (a : Operands) :
    (encode (decodeFc code a)).format = .fc ∧ (encode (decodeFc code a)).code = code := by
  unfold decodeFc
  split <;> exact ⟨rfl, rfl⟩

/-- The codes of format CMD that no row takes (30_encoding R87). -/
theorem decodeCmd_reserved_iff (code : Byte) (a : Operands) :
    decodeCmd code a = .reserved code ↔ code.toNat = 0 ∨ 0x11 ≤ code.toNat := by
  unfold decodeCmd
  split
  case h_17 =>
    have hcode : code.toNat = 0 ∨ 0x11 ≤ code.toNat := by
      simp only [imp_false, BitVec.toNat_eq, BitVec.reduceToNat] at *
      omega
    exact iff_of_true rfl hcode
  all_goals exact iff_of_false Decoded.noConfusion (by decide)

/-- The sequencer's own operations have no operand that could be out of range. -/
theorem cycleOf_wf (d : Dir) : (cycleOf d).wf = true := by
  cases d with
  | t2r => rfl
  | r2t => rfl

theorem cycleOf_eq_ite (d : Dir) : cycleOf d = if d = .t2r then .cycT2r else .cycR2t := by
  cases d with
  | t2r => rfl
  | r2t => rfl

/-! ### The fetch and the step -/

theorem fetch_of_cons {s : State} {c : Cmd} {rest : List Cmd} (h : s.issue = c :: rest) :
    fetch s = (c, { s with issue := rest }) := by
  simp only [fetch, h]

theorem fetch_of_nil {s : State} (h : s.issue = []) : fetch s = (encode (cycleOf s.dir), s) := by
  simp only [fetch, h]

/-- What the sequencer issues by itself is never a reserved code (30_encoding R87). -/
theorem decode_fetch_of_nil {s : State} (h : s.issue = []) : decode (fetch s).1 = .ok (cycleOf s.dir) := by
  rw [fetch_of_nil h]
  exact decode_encode (cycleOf_wf s.dir)

theorem step_of_decode {s : State} {i : Instr} (hc : s.cstate ≠ .closed) (h : decode (fetch s).1 = .ok i) :
    step s = exec i (fetch s).2 := by
  simp only [step, if_neg hc, h]

theorem step_of_reserved {s : State} {code : Byte} (hc : s.cstate ≠ .closed)
    (h : decode (fetch s).1 = .reserved code) : step s = .refused (.reservedSelect code) := by
  simp only [step, if_neg hc, h]

/-- With nothing handed over, a step outside Closed performs the cycle of CFG.DIR on the state as it stands. -/
theorem step_cycleOf {s : State} (hissue : s.issue = []) (hc : s.cstate ≠ .closed) :
    step s = exec (cycleOf s.dir) s := by
  rw [step_of_decode hc (decode_fetch_of_nil hissue), fetch_of_nil hissue]

/-! ### The statements about the encoding -/

/-- Settles O1: row by row, with the default row of format FC the only one that needs well-formedness. -/
theorem decodeOfEncodeIsTheInstruction : Obligations.DecodeOfEncodeIsTheInstruction := fun _ h => decode_encode h

/-- Settles O2: in each format, the row that takes a code is encoded with that code. -/
theorem selectCodeDeterminedByInstruction : Obligations.SelectCodeDeterminedByInstruction := by
  intro ⟨format, code, a⟩ i h
  cases format with
  | cmd => exact encode_of_decodeCmd h
  | fc =>
    cases h
    exact encode_decodeFc code a

/-- Settles O3: the rows take 0x01 to 0x10, and the sequencer's own two codes are among them. -/
theorem reservedSelectCodesAreRefused : Obligations.ReservedSelectCodesAreRefused := by
  refine ⟨decodeCmd_reserved_iff, fun s code a rest hc hissue hcode => ?_,
    fun s hissue => ⟨_, decode_fetch_of_nil hissue⟩⟩
  refine step_of_reserved hc ?_
  rw [fetch_of_cons hissue]
  exact (decodeCmd_reserved_iff code a).mpr hcode

/-- Settles O4: the table words by evaluation, the commands with operands because they are the encoder's own. -/
theorem tableCodesDecode : Obligations.TableCodesDecode :=
  ⟨rfl, rfl, rfl, rfl, decode_encode (i := .est 0x03#8 (some 10#16)) rfl, decode_encode (i := .estFc0F none) rfl,
    decode_encode (i := .estOther 0x99#8 none) rfl⟩

/-- Settles O5: `step` outside Closed, and the two cases of the fetch. -/
theorem stepRunsTheDecodedInstruction : Obligations.StepRunsTheDecodedInstruction := by
  refine ⟨fun _ _ => step_of_decode, fun _ _ _ => fetch_of_cons, fun s hissue => ?_⟩
  rw [fetch_of_nil hissue, cycleOf_eq_ite]

/-- Settles O6: the cycle a step performs, at each direction. -/
theorem sequencerPerformsTheCycleOfItsDirection : Obligations.SequencerPerformsTheCycleOfItsDirection := by
  intro s hissue hc
  have h := step_cycleOf hissue hc
  exact ⟨fun hd => by rw [h, hd, cycleOf], fun hd => by rw [h, hd, cycleOf]⟩

end Sys2Proof.Machine
end

section
/-! SUPPORT. The CRC Engine against 40_crc R101 to R107: the eight bit steps of a byte as one iteration, the residue of an
appended frame, and the check read on its two bytes. -/

namespace Sys2Proof.Machine

/-! ### One byte -/

/-- Where the bit shifted out is 0 the polynomial does not come in (40_crc R101). -/
theorem crcBit_of_even {c : Word16} (h : c.getLsbD 0 = false) : crcBit c = c >>> 1 := by
  rw [crcBit, h, if_neg Bool.false_ne_true]

/-- As long as only zeros are shifted out, the bit steps are a shift. -/
theorem crcBit_iterate_of_low_zero {n : Nat} {c : Word16} (h : ∀ i < n, c.getLsbD i = false) :
    crcBit^[n] c = c >>> n := by
  induction n generalizing c with
  | zero => rfl
  | succ n ih =>
    have hshift : ∀ i < n, (c >>> 1).getLsbD i = false := fun i hi => by
      rw [BitVec.getLsbD_ushiftRight]
      exact h (1 + i) (by omega)
    rw [Function.iterate_succ_apply, crcBit_of_even (h 0 (by omega)), ih hshift, ← BitVec.shiftRight_add,
      Nat.add_comm]

theorem crcByte_eq_iterate (c : Word16) (b : Byte) : crcByte c b = crcBit^[8] (c ^^^ b.setWidth 16) := rfl

/-- The register's own low byte cancels it, and the eight steps shift the high byte down. -/
theorem crcByte_loByte (c : Word16) : crcByte c (loByte c) = c >>> 8 := by
  have hlow : ∀ i < 8, (c ^^^ (loByte c).setWidth 16).getLsbD i = false := fun i hi => by
    have : i < 16 := by omega
    simp [loByte, hi, this]
  rw [crcByte_eq_iterate, crcBit_iterate_of_low_zero hlow]
  ext i hi
  simp [loByte]

theorem loByte_shiftRight (c : Word16) : loByte (c >>> 8) = hiByte c := by
  apply BitVec.eq_of_toNat_eq
  have := c.isLt
  rw [loByte_toNat, hiByte_toNat, BitVec.toNat_ushiftRight, Nat.shiftRight_eq_div_pow]
  omega

/-- The register run over its own two bytes, low byte first, is emptied (40_crc R106). -/
theorem foldl_crcByte_own_bytes (c : Word16) : [loByte c, hiByte c].foldl crcByte c = 0x0000#16 :=
  calc crcByte (crcByte c (loByte c)) (hiByte c)
    _ = crcByte (c >>> 8) (loByte (c >>> 8)) := by rw [crcByte_loByte, loByte_shiftRight]
    _ = c >>> 16 := by rw [crcByte_loByte, ← BitVec.shiftRight_add]
    _ = 0x0000#16 := BitVec.ushiftRight_eq_zero (le_refl 16)

/-! ### A sequence, and the check on a pair -/

/-- The rule written out a second time runs the machine's update over the bytes (40_crc R101, R102). -/
theorem crcFrom_eq_foldl (c : Word16) (bytes : List Byte) : Spec.crcFrom c bytes = bytes.foldl crcByte c := by
  induction bytes generalizing c with
  | nil => rfl
  | cons b bs ih => exact ih (crcByte c b)

theorem exec_crc16 (bytes : List Byte) (s : State) :
    exec (.crc16 bytes) s = .next ((s.setCrc (crc16 bytes)).setResult (.word16 (crc16 bytes))) := rfl

/-- A 16-bit value is a byte pair exactly when these are its low and its high byte. -/
theorem eq_append_iff (v : Word16) (hi lo : Byte) : v = hi ++ lo ↔ lo = loByte v ∧ hi = hiByte v := by
  constructor
  · rintro rfl
    exact ⟨(loByte_append hi lo).symm, (hiByte_append hi lo).symm⟩
  · rintro ⟨rfl, rfl⟩
    exact (hiByte_append_loByte v).symm

/-- The check on a frame that ends in two bytes, byte by byte (40_crc R105). -/
theorem crcMatches_pair_iff (body : List Byte) (lo hi : Byte) :
    crcMatches (body ++ [lo, hi]) = true ↔ lo = loByte (crc16 body) ∧ hi = hiByte (crc16 body) :=
  (crcMatches_pair body lo hi).trans (eq_append_iff _ hi lo)

/-- The engine over a whole appended frame, trailer included (40_crc R106). -/
theorem crc16_rtuFrame (body : List Byte) : crc16 (rtuFrame body) = 0x0000#16 :=
  (crc16_append body _).trans (foldl_crcByte_own_bytes _)

/-- The corrected reference vector (40_crc R107). -/
theorem crc16_reference : crc16 [0x01#8, 0x03#8, 0x00#8, 0x00#8, 0x00#8, 0x0A#8] = 0xCDC5#16 := by decide +kernel

/-! ### The statements about the CRC Engine -/

/-- Settles O18: the machine's fold is the register of R102, and the two updates are the fields it names. -/
theorem crcOperationComputesTheStandardCrc : Obligations.CrcOperationComputesTheStandardCrc := by
  intro bytes s
  rw [exec_crc16, crcFrom_eq_foldl]
  rfl

/-- Settles O20: the trailer is the pair the check asks for, and the register run over its own two bytes is emptied. -/
theorem appendedFramePassesTheCheckAndLeavesZero : Obligations.AppendedFramePassesTheCheckAndLeavesZero :=
  fun body s => ⟨(crcMatches_pair_iff body _ _).mpr ⟨rfl, rfl⟩, _, exec_crc16 _ s, crc16_rtuFrame body⟩

/-- Settles O21: the check on a pair, and the same with nothing before it, where the CRC is 0xFFFF. -/
theorem crcCheckComparesLowByteFirst : Obligations.CrcCheckComparesLowByteFirst :=
  ⟨crcMatches_pair_iff, crcMatches_pair_iff []⟩

/-- Settles O19: the two short sequences by evaluation; what the operation leaves names no register it found. -/
theorem crcCornerCases : Obligations.CrcCornerCases :=
  ⟨fun s => ⟨_, exec_crc16 [] s, crc16_nil⟩,
    fun s => ⟨_, exec_crc16 _ s, (by decide : crc16 [0x00#8] = 0x40BF#16)⟩,
    fun bytes s t => ⟨_, _, exec_crc16 bytes s, exec_crc16 bytes t, rfl, rfl⟩⟩

/-- Settles O22: the vector by evaluation, its frame from the vector. -/
theorem referenceVectorIsTheCorrectedOne : Obligations.ReferenceVectorIsTheCorrectedOne := by
  refine ⟨crc16_reference, ?_⟩
  rw [rtuFrame, crc16_reference]
  decide

end Sys2Proof.Machine
end

section
/-! SUPPORT. O23 and O24: the field reader. A field grows by its last byte, so the value of two bytes (`be16_pair`) carries to
four and to eight; the field of a sequence cut in three is its middle part. -/

namespace Sys2Proof.Machine

/-! ### The value of a field -/

/-- A byte read after the others is the least significant one. -/
theorem beValue_snoc (bs : List Byte) (b : Byte) : beValue (bs ++ [b]) = beValue bs * 2 ^ 8 + b.toNat :=
  List.foldl_append

/-- Bytes that read as `v` read as `v ++ b` with one more byte behind them. -/
theorem ofNat_beValue_snoc {w : Nat} {v : BitVec w} {bs : List Byte} (b : Byte) (h : BitVec.ofNat w (beValue bs) = v) :
    BitVec.ofNat (w + 8) (beValue (bs ++ [b])) = v ++ b := by
  subst h
  apply BitVec.eq_of_toNat_eq
  have hb := b.isLt
  have hdiv : (beValue bs * 2 ^ 8 + b.toNat) / 2 ^ 8 = beValue bs := by omega
  have hmod : (beValue bs * 2 ^ 8 + b.toNat) % 2 ^ 8 = b.toNat := by omega
  rw [BitVec.toNat_append, BitVec.toNat_ofNat, BitVec.toNat_ofNat]
  calc beValue (bs ++ [b]) % 2 ^ (w + 8)
    _ = (beValue bs * 2 ^ 8 + b.toNat) % (2 ^ 8 * 2 ^ w) := by rw [beValue_snoc, Nat.pow_add, Nat.mul_comm (2 ^ w)]
    _ = b.toNat + 2 ^ 8 * (beValue bs % 2 ^ w) := by rw [Nat.mod_mul, hdiv, hmod]
    _ = (beValue bs % 2 ^ w) <<< 8 ||| b.toNat := by
      rw [← Nat.shiftLeft_add_eq_or_of_lt hb, Nat.shiftLeft_eq, Nat.add_comm, Nat.mul_comm]

/-- Four bytes read most significant first (41_field_reader R116). -/
theorem be32_quad (b0 b1 b2 b3 : Byte) : BitVec.ofNat 32 (beValue [b0, b1, b2, b3]) = b0 ++ b1 ++ b2 ++ b3 :=
  ofNat_beValue_snoc b3 (ofNat_beValue_snoc b2 (be16_pair b0 b1))

/-- Eight bytes read most significant first (41_field_reader R117). -/
theorem be64_octet (b0 b1 b2 b3 b4 b5 b6 b7 : Byte) :
    BitVec.ofNat 64 (beValue [b0, b1, b2, b3, b4, b5, b6, b7]) = b0 ++ b1 ++ b2 ++ b3 ++ b4 ++ b5 ++ b6 ++ b7 :=
  ofNat_beValue_snoc b7 (ofNat_beValue_snoc b6 (ofNat_beValue_snoc b5 (ofNat_beValue_snoc b4 (be32_quad b0 b1 b2 b3))))

/-- The field behind `p`, as long as `bs`, is `bs`. -/
theorem beField_append_append {n : Nat} (p bs q : List Byte) (h : bs.length = n) :
    beField n p.length (p ++ bs ++ q) = beValue bs := by
  rw [beField, List.append_assoc, List.drop_left, ← h, List.take_left]

/-- The field behind `p` lies inside the data. -/
theorem field_inside {n : Nat} (p bs q : List Byte) (h : bs.length = n) : p.length + n ≤ (p ++ bs ++ q).length := by
  rw [List.length_append, List.length_append, h]
  exact Nat.le_add_right _ _

/-! ### The three operations -/

theorem exec_be16_inside {bytes : List Byte} {off : Nat} (s : State) (h : off + 2 ≤ bytes.length) :
    exec (.be16 bytes off) s = .next (s.setResult (.word16 (BitVec.ofNat 16 (beField 2 off bytes)))) := if_pos h

theorem exec_be32_inside {bytes : List Byte} {off : Nat} (s : State) (h : off + 4 ≤ bytes.length) :
    exec (.be32 bytes off) s = .next (s.setResult (.word32 (BitVec.ofNat 32 (beField 4 off bytes)))) := if_pos h

theorem exec_be64_inside {bytes : List Byte} {off : Nat} (s : State) (h : off + 8 ≤ bytes.length) :
    exec (.be64 bytes off) s = .next (s.setResult (.word64 (BitVec.ofNat 64 (beField 8 off bytes)))) := if_pos h

/-- Each operation refuses a field its own width beyond the data (41_field_reader R118). -/
theorem exec_be16_beyond {bytes : List Byte} {off : Nat} (s : State) (h : bytes.length < off + 2) :
    exec (.be16 bytes off) s = .refused .fieldBeyondData := if_neg h.not_ge

theorem exec_be32_beyond {bytes : List Byte} {off : Nat} (s : State) (h : bytes.length < off + 4) :
    exec (.be32 bytes off) s = .refused .fieldBeyondData := if_neg h.not_ge

theorem exec_be64_beyond {bytes : List Byte} {off : Nat} (s : State) (h : bytes.length < off + 8) :
    exec (.be64 bytes off) s = .refused .fieldBeyondData := if_neg h.not_ge

/-! ### The statements about the field reader -/

/-- Settles O23: the field is the middle part, which lies inside the data and reads as its bytes joined. -/
theorem fieldsAreReadBigEndian : Obligations.FieldsAreReadBigEndian := by
  refine ⟨fun p q b0 b1 s => ?_, fun p q b0 b1 b2 b3 s => ?_, fun p q b0 b1 b2 b3 b4 b5 b6 b7 s => ?_⟩
  · rw [exec_be16_inside s (field_inside p _ q rfl),
      beField_append_append (n := 2) p [b0, b1] q rfl, be16_pair]
    rfl
  · rw [exec_be32_inside s (field_inside p _ q rfl),
      beField_append_append (n := 4) p [b0, b1, b2, b3] q rfl, be32_quad]
    rfl
  · rw [exec_be64_inside s (field_inside p _ q rfl),
      beField_append_append (n := 8) p [b0, b1, b2, b3, b4, b5, b6, b7] q rfl, be64_octet]
    rfl

/-- Settles O24: inside the data the value names only the bytes and the offset, and beyond it each operation refuses. -/
theorem fieldReaderIsPureAndRefusesBeyondTheData : Obligations.FieldReaderIsPureAndRefusesBeyondTheData :=
  fun _ _ s t =>
    ⟨fun h => ⟨_, exec_be16_inside s h, exec_be16_inside t h⟩,
      fun h => ⟨_, exec_be32_inside s h, exec_be32_inside t h⟩,
      fun h => ⟨_, exec_be64_inside s h, exec_be64_inside t h⟩,
      exec_be16_beyond s, exec_be32_beyond s, exec_be64_beyond s⟩

end Sys2Proof.Machine
end

section
/-! SUPPORT. O29, O31, O33, O35 and O36: the two readers as operations. Both are `execReader` with their own tests; its bounded
loop is a run of the pseudocode's unbounded one, because every iteration that goes on stores a byte (log 27). -/

namespace Sys2Proof.Machine

open Sys2Proof.Spec

/-! ### The operation both readers are -/

/-- A reader with the given tests, as an operation: the frame is read and its outcome handed back. -/
def execReader (l : LinkId) (cap : Nat) (verdict : State → Option ReadOutcome × State) (s : State) : Out :=
  andThen (readFrame l cap verdict s) fun p => .next (p.2.setResult (.outcome p.1))

/-- The state a reader completes in: the outcome its loop returned in OUTCOME and handed back (42 R120, 43 R135). -/
def readerCompleted (p : ReadOutcome × State) : State := (p.2.setOutcome p.1).setResult (.outcome p.1)

theorem exec_rdmbap (l : LinkId) (cap : Nat) (s : State) : exec (.rdmbap l cap) s = execReader l cap mbapVerdict s := rfl

theorem exec_rdrtu (l : LinkId) (cap : Nat) (exp : Expectation) (s : State) :
    exec (.rdrtu l cap exp) s = execReader l cap (rtuVerdict l exp) s := rfl

section Reader

variable {l : LinkId} {cap : Nat} {verdict : State → Option ReadOutcome × State} {s t : State}

theorem execReader_of_open (hc : cap ≤ 260) (ho : (s.env.link l).isOpen = true) :
    execReader l cap verdict s = .next (readerCompleted (readLoop l cap verdict cap (s.setRxlen 0))) := by
  rw [execReader, readFrame, if_pos hc, needOpen_of_open ho]
  rfl

theorem execReader_eq_next (h : execReader l cap verdict s = .next t) :
    t = readerCompleted (readLoop l cap verdict cap (s.setRxlen 0)) := by
  obtain ⟨p, hp, h⟩ := andThen_eq_next h
  obtain ⟨-, -, rfl⟩ := readFrame_eq_next hp
  cases h
  rfl

theorem execReader_of_cap_lt (h : 260 < cap) : execReader l cap verdict s = .refused (.capacityOperand cap) :=
  andThen_of_refused (if_neg h.not_ge)

theorem execReader_of_closed (hc : cap ≤ 260) (ho : (s.env.link l).isOpen = false) :
    execReader l cap verdict s = .refused (.linkClosed l) :=
  andThen_of_refused ((if_pos hc).trans (needOpen_of_closed ho))

/-- `cancel` is tested first in every iteration (42 R129, 43 R148), whatever room is left. -/
theorem readLoop_of_cancel (room : Nat) (h : s.env.cancelNow = true) :
    readLoop l cap verdict room s = (.fatal .aborted, s.setEnv s.env.afterSample) := by
  cases room <;> simp [readLoop, h]

theorem execReader_of_cancel (hc : cap ≤ 260) (ho : (s.env.link l).isOpen = true) (h : s.env.cancelNow = true) :
    execReader l cap verdict s =
      .next (readerCompleted (.fatal .aborted, (s.setRxlen 0).setEnv s.env.afterSample)) := by
  rw [execReader_of_open hc ho, readLoop_of_cancel cap (s := s.setRxlen 0) h]
  rfl

/-- Either reader is `execReader` with tests that keep what a reader keeps; for RDMBAP they are the MBAP tests. -/
theorem exec_of_reader {exp : Expectation} {i : Instr} (h : i ∈ [Instr.rdmbap l cap, Instr.rdrtu l cap exp]) :
    ∃ verdict, (∀ s, exec i s = execReader l cap verdict s) ∧ (∀ u, ReaderKeeps l u (verdict u).2) ∧
      (i = .rdmbap l cap → verdict = mbapVerdict) := by
  rcases List.mem_pair.mp h with rfl | rfl
  · exact ⟨mbapVerdict, exec_rdmbap l cap, ReaderKeeps.mbapVerdict l, fun _ => rfl⟩
  · exact ⟨rtuVerdict l exp, exec_rdrtu l cap exp, ReaderKeeps.rtuVerdict l exp, fun h => by cases h⟩

/-! ### The bounded loop is a run of the unbounded one -/

/-- Tests that leave RXB and RXLEN alone leave them filled. -/
theorem KeepsFrame.fill {o : Option ReadOutcome} (hk : KeepsFrame verdict) (hs : ReaderFill cap s) (h : verdict s = (o, t)) :
    t.rxlen = s.rxlen ∧ ReaderFill cap t := by
  obtain ⟨hlen, hrxb⟩ := hk s
  rw [h] at hlen hrxb
  exact ⟨hlen, hlen ▸ hs.le, by rw [hlen, hrxb]; exact hs.held⟩

/-- A relation with the ways of ending and of reading on of a reader's pseudocode holds of the loop: with `room` iterations
left RXLEN is at least `cap - room`, so with none left the buffer is full. -/
theorem readLoop_run {Run : State → ReadOutcome → State → Prop}
    (aborted : ∀ s, s.env.cancelNow = true → Run s (.fatal .aborted) (s.setEnv s.env.afterSample))
    (full : ∀ s, s.env.cancelNow = false → s.rxlen = cap → Run s (.fatal .bufferFull) (s.setEnv s.env.afterSample))
    (zero : ∀ s, Reads cap s → answer l cap s = .zero → Run s (.fatal .disconnected) (received l cap s))
    (timedOut : ∀ s, Reads cap s → answer l cap s = .timedOut → Run s .timeout (received l cap s))
    (fault : ∀ s k, Reads cap s → answer l cap s = .fault k → Run s (.fatal (.rawError k)) (received l cap s))
    (done : ∀ s b bs o u, Reads cap s → answer l cap s = .data b bs → ReaderFill cap ((received l cap s).append (b :: bs)) →
      verdict ((received l cap s).append (b :: bs)) = (some o, u) → Run s o u)
    (again : ∀ s b bs u o t, Reads cap s → answer l cap s = .data b bs →
      ReaderFill cap ((received l cap s).append (b :: bs)) →
      verdict ((received l cap s).append (b :: bs)) = (none, u) → Run u o t → Run s o t)
    (hk : KeepsFrame verdict) (room : Nat) (s : State) (hs : ReaderFill cap s) (hroom : cap ≤ s.rxlen + room) :
    Run s (readLoop l cap verdict room s).1 (readLoop l cap verdict room s).2 := by
  induction room generalizing s with
  | zero =>
    cases hcan : s.env.cancelNow with
    | true => rw [readLoop_of_cancel 0 hcan]; exact aborted s hcan
    | false =>
      simp only [readLoop, hcan]
      exact full s hcan (Nat.le_antisymm hs.le hroom)
  | succ room ih =>
    unfold readLoop
    split
    · exact aborted s ‹_›
    next hcan =>
    replace hcan := Bool.eq_false_iff.mpr hcan
    split
    · exact full s hcan ‹_›
    next hne =>
    dsimp only
    split
    · exact zero s ⟨hcan, hne⟩ ‹_›
    · exact timedOut s ⟨hcan, hne⟩ ‹_›
    · exact fault s _ ⟨hcan, hne⟩ ‹_›
    · next b bs hd =>
      have hfill : ReaderFill cap ((received l cap s).append (b :: bs)) := hs.iteration hne hd
      split
      · next o u hv => exact done s b bs o u ⟨hcan, hne⟩ hd hfill hv
      · next u hv =>
        obtain ⟨hlen, hu⟩ := hk.fill hfill hv
        have hgrown : u.rxlen = s.rxlen + (bs.length + 1) := hlen
        exact again s b bs u _ _ ⟨hcan, hne⟩ hd hfill hv (ih u hu (by omega))

end Reader

/-! ### RDMBAP -/

/-- With more than six bytes accumulated, the field the tests read is `be16(RXB, 4)`. -/
theorem ReaderFill.lengthField {cap : Nat} {s : State} (hs : ReaderFill cap s) (h : 6 < s.rxlen) :
    LengthField s (beField 2 4 s.rxFrame) := by
  obtain ⟨frame, hf⟩ := hs.held
  have hlen := Buffer.slice_length hf
  have hframe : s.rxFrame = frame := by rw [State.rxFrame, hf, Option.getD_some]
  have byte : ∀ i (hi : i < frame.length), Buffer.get s.rxb i = some frame[i] := fun i hi => by
    rw [← List.getElem?_eq_getElem hi, Buffer.slice_get hf (hlen ▸ hi), Nat.zero_add]
  have hfield : (frame.drop 4).take 2 = [frame[4], frame[5]] := by
    rw [List.drop_eq_getElem_cons (by omega), List.drop_eq_getElem_cons (by omega)]
    rfl
  exact ⟨frame[4], frame[5], byte 4 _, byte 5 _, by simp [hframe, beField, hfield, beValue]⟩

/-- The MBAP tests change nothing. -/
theorem mbapVerdict_unchanged {u t : State} {o : Option ReadOutcome} (h : mbapVerdict u = (o, t)) : t = u :=
  (congrArg Prod.snd h).symm

/-- A success of the MBAP tests returns RXLEN, which is what the length field asks for (42 R126). -/
theorem mbapVerdict_delimited {u t : State} {n : Nat} (h : mbapVerdict u = (some (.success n), t)) :
    n = u.rxlen ∧ 6 < u.rxlen ∧ u.rxlen = beField 2 4 u.rxFrame + 6 := by
  rcases mbapVerdict_cases u with ⟨h6, hfield, hv⟩ | ⟨-, -, hv⟩ | ⟨-, hv⟩ <;> cases hv.symm.trans h
  exact ⟨rfl, h6, hfield⟩

/-- The loop of RDMBAP is a run of R120's pseudocode: each answer of its tests is one of the pseudocode's own. -/
theorem readLoop_mbapRun {l : LinkId} {cap : Nat} (s : State) :
    MbapRun l cap (s.setRxlen 0) (readLoop l cap mbapVerdict cap (s.setRxlen 0)).1
      (readLoop l cap mbapVerdict cap (s.setRxlen 0)).2 := by
  refine readLoop_run .aborted .bufferFull .disconnected .timedOut .rawError ?_ ?_ mbapVerdict_keepsFrame cap (s.setRxlen 0)
    (readerFill_start cap s) (Nat.le_add_left _ _)
  · intro s b bs o u hr hd hfill hv
    rcases mbapVerdict_cases ((received l cap s).append (b :: bs)) with ⟨h6, heq, h⟩ | ⟨h6, hlt, h⟩ | ⟨-, h⟩ <;>
      cases h.symm.trans hv
    · exact .success s _ b bs _ hr hd rfl h6 (hfill.lengthField h6) heq
    · exact .tooMuchData s _ b bs _ hr hd rfl h6 (hfill.lengthField h6) hlt
  · intro s b bs u o t hr hd hfill hv hrun
    rcases mbapVerdict_cases ((received l cap s).append (b :: bs)) with ⟨-, -, h⟩ | ⟨-, -, h⟩ | ⟨hmore, h⟩ <;>
      cases h.symm.trans hv
    by_cases h6 : ((received l cap s).append (b :: bs)).rxlen ≤ 6
    · exact .readOnShort s _ t b bs o hr hd rfl h6 hrun
    · exact .readOnLong s _ t b bs _ o hr hd rfl (by omega) (hfill.lengthField (by omega)) (by omega) hrun

/-- The tests of RDMBAP write no register, so its loop leaves CRC alone. -/
theorem readLoop_mbap_crc (l : LinkId) (cap room : Nat) (s : State) :
    (readLoop l cap mbapVerdict room s).2.crc = s.crc ∧
      (readLoop l cap mbapVerdict room s).2.written.crc = s.written.crc := by
  refine readLoop_induct (P := fun u => u.crc = s.crc ∧ u.written.crc = s.written.crc)
    (Q := fun _ t => t.crc = s.crc ∧ t.written.crc = s.written.crc)
    (fun _ h _ => h) (fun _ h => h) (fun _ h => h) (fun _ h => h) (fun _ _ h => h) ?_ ?_ room s ⟨rfl, rfl⟩
  · exact fun u b bs o w h _ _ hw => mbapVerdict_unchanged hw ▸ h
  · exact fun u b bs w h _ _ hw => mbapVerdict_unchanged hw ▸ h

/-! ### The statements about the readers -/

/-- Settles O29: on an open link the operation is its loop, and the loop is a run of the pseudocode. -/
theorem mbapReaderRefinesItsPseudocode : Obligations.MbapReaderRefinesItsPseudocode :=
  fun _ _ s hc ho => ⟨_, _, readLoop_mbapRun s, execReader_of_open hc ho⟩

/-- Settles O31: a success is the tests' own, given on the state the loop returns, which is filled below RXLEN. -/
theorem mbapSuccessIsDelimitedByTheLengthField : Obligations.MbapSuccessIsDelimitedByTheLengthField := by
  intro l cap s t n h hn
  obtain rfl := execReader_eq_next h
  obtain ⟨-, hsucc⟩ := readLoop_fill (l := l) mbapVerdict_keepsFrame cap (s.setRxlen 0) (readerFill_start cap s)
  obtain ⟨u, -, -, -, hfill, hverdict⟩ := hsucc n hn
  obtain ⟨rfl, h6, hfield⟩ := mbapVerdict_delimited hverdict
  obtain rfl := mbapVerdict_unchanged hverdict
  obtain ⟨frame, hframe⟩ := hfill.held
  exact ⟨rfl, h6, hfill.le, Nat.sub_eq_of_eq_add hfield ▸ hfill.lengthField h6, fun i => Buffer.held_of_slice hframe⟩

/-- Settles O33: the first iteration ends at its sample of `cancel`, before its LinkRecv. -/
theorem cancelledReaderReadsNothing : Obligations.CancelledReaderReadsNothing := by
  intro l cap exp i s hi hc ho hcan
  obtain ⟨verdict, hexec, -, -⟩ := exec_of_reader hi
  exact ⟨_, (hexec s).trans (execReader_of_cancel hc ho hcan), rfl, rfl, rfl, Env.afterSample_link s.env⟩

/-- Settles O35: the tests of both readers keep what a reader keeps, and those of RDMBAP write no register. -/
theorem readersChangeOnlyWhatTheyWrite : Obligations.ReadersChangeOnlyWhatTheyWrite := by
  intro l cap exp i s t hi h
  obtain ⟨verdict, hexec, hv, hmbap⟩ := exec_of_reader hi
  obtain rfl := execReader_eq_next ((hexec s).symm.trans h)
  have hk := readLoop_keeps (cap := cap) hv cap (s.setRxlen 0)
  have hw {α : Type} (register : Written → α) := congrArg register hk.written
  refine ⟨⟨hk.dir, hk.cstate, hk.txlen, hk.txid, hk.savedTid, hk.savedPid, hk.sentTid, hk.explen, hk.txb, hk.issue,
      hw Written.savedTid, hw Written.savedPid, hw Written.sentTid, hw Written.explen⟩,
    hk.behind, hk.otherLink, hk.isOpen, hk.tx, hk.calls, hk.sends, hk.discards, fun hi => ?_⟩
  obtain rfl := hmbap hi
  exact readLoop_mbap_crc l cap cap (s.setRxlen 0)

/-- Settles O36: the capacity is tested before the link, by either reader. -/
theorem readerPreconditionsAreRefused : Obligations.ReaderPreconditionsAreRefused :=
  fun _ _ _ _ => ⟨fun hc => ⟨execReader_of_cap_lt hc, execReader_of_cap_lt hc⟩,
    fun hc ho => ⟨execReader_of_closed hc ho, execReader_of_closed hc ho⟩⟩

end Sys2Proof.Machine
end

section
/-! SUPPORT. O30 and O32: RDRTU. The tests of one iteration are said once for each path (43 R142 to R146); with them the loop is
a run of R135's pseudocode, and what a success means is read off that run. -/

namespace Sys2Proof.Machine

open Sys2Proof.Spec

/-! ### The CRC check on the accumulated frame -/

/-- With at least two bytes, the check of the reader is the rule's: the frame is a body with its own CRC behind it (40_crc
R105). -/
theorem crcMatches_iff_crcOk {frame : List Byte} (h : 2 ≤ frame.length) : crcMatches frame = true ↔ CrcOk frame := by
  obtain ⟨body, lo, hi, rfl⟩ := exists_last_pair frame h
  rw [crcMatches_pair_iff]
  constructor
  · rintro ⟨rfl, rfl⟩
    exact ⟨body, rfl⟩
  · rintro ⟨body', heq⟩
    obtain ⟨rfl, hpair⟩ := List.append_inj' heq rfl
    simpa using hpair

section Fill

variable {l : LinkId} {cap : Nat} {s u : State} {p : Bool}

/-- In a filled reader the accumulated bytes are what `rxFrame` reads. -/
theorem ReaderFill.frame (hs : ReaderFill cap s) : Frame s s.rxFrame := by
  obtain ⟨bs, hf⟩ := hs.held
  have hlen := Buffer.slice_length hf
  rw [State.rxFrame, hf, Option.getD_some]
  exact ⟨hlen, fun i hi => by rw [Buffer.slice_get hf (hlen ▸ hi), Nat.zero_add]⟩

theorem ReaderFill.crcCovered (hs : ReaderFill cap s) : crcCovered s.rxFrame = s.rxFrame.take (s.rxlen - 2) := by
  rw [Machine.crcCovered, hs.frame.1]

theorem ReaderFill.crcMatches_iff (hs : ReaderFill cap s) (h : 2 ≤ s.rxlen) :
    crcMatches s.rxFrame = true ↔ CrcOk s.rxFrame :=
  crcMatches_iff_crcOk (hs.frame.1 ▸ h)

/-- A chunk fits the room left and holds at least one byte (43 R139, R140). -/
theorem chunk_fill (h : Chunk l cap s u p) (hs : ReaderFill cap s) : ReaderFill cap u ∧ s.rxlen < u.rxlen := by
  obtain ⟨⟨-, hne⟩, b, bs, hd, -, rfl⟩ := h
  obtain ⟨hle, hheld⟩ := hs.iteration hne hd
  exact ⟨⟨hle, hheld⟩, Nat.lt_add_of_pos_right (Nat.succ_pos _)⟩

theorem chunks_fill (h : Chunks l cap s u) (hs : ReaderFill cap s) : ReaderFill cap u := by
  induction h with
  | none => exact hs
  | more s u t p hchunk _ ih => exact ih (chunk_fill hchunk hs).1

end Fill

/-! ### The tests of one iteration -/

/-- The 2-byte condition comes first, on either path (43 R142, R148). -/
theorem rtuTests_of_two {exp : Expectation} {p : Bool} {s : State} (h : s.rxlen = 2 ∧ p = false) :
    rtuTests exp p s = (some (.fatal .aborted), s) := if_pos h

theorem rtuTests_known {e : Word18} {p : Bool} {s : State} (h : ¬(s.rxlen = 2 ∧ p = false)) :
    rtuTests (.known e) p s = knownVerdict e p s := if_neg h

theorem rtuTests_unknown {p : Bool} {s : State} (h : ¬(s.rxlen = 2 ∧ p = false)) :
    rtuTests .unknown p s = unknownVerdict p s := if_neg h

/-- What the known-length tests can answer on a filled reader (43 R143 to R145). -/
theorem knownVerdict_cases {cap : Nat} {s : State} (hs : ReaderFill cap s) (e : Word18) (p : Bool) :
    (s.rxlen = e.toNat + 3 ∧ CrcOk s.rxFrame ∧
      knownVerdict e p s = (some (.success s.rxlen), s.setCrc (crc16 (s.rxFrame.take (s.rxlen - 2))))) ∨
    (s.rxlen = e.toNat + 3 ∧ ¬CrcOk s.rxFrame ∧
      knownVerdict e p s = (some (.fatal .crcMismatch), s.setCrc (crc16 (s.rxFrame.take (s.rxlen - 2))))) ∨
    (e.toNat + 3 < s.rxlen ∧ knownVerdict e p s = (some (.fatal .tooMuchData), s)) ∨
    (s.rxlen < e.toNat + 3 ∧ s.rxlen = 5 ∧ p = false ∧ knownVerdict e p s = (some (.success 5), s)) ∨
    (s.rxlen < e.toNat + 3 ∧ ¬(s.rxlen = 5 ∧ p = false) ∧ knownVerdict e p s = (none, s)) := by
  unfold knownVerdict
  rcases lt_trichotomy s.rxlen (e.toNat + 3) with hlt | heq | hgt
  · rw [if_neg hlt.ne, if_neg hlt.not_gt]
    by_cases h5 : s.rxlen = 5 ∧ p = false
    · exact .inr (.inr (.inr (.inl ⟨hlt, h5.1, h5.2, if_pos h5⟩)))
    · exact .inr (.inr (.inr (.inr ⟨hlt, h5, if_neg h5⟩)))
  · rw [if_pos heq, hs.crcCovered]
    have hcrc := hs.crcMatches_iff (by omega)
    by_cases hok : CrcOk s.rxFrame
    · exact .inl ⟨heq, hok, by rw [if_pos (hcrc.mpr hok)]⟩
    · exact .inr (.inl ⟨heq, hok, by rw [if_neg (mt hcrc.mp hok)]⟩)
  · rw [if_neg hgt.ne', if_pos hgt]
    exact .inr (.inr (.inl ⟨hgt, rfl⟩))

/-- What the unknown-length tests can answer on a filled reader (43 R146). -/
theorem unknownVerdict_cases {cap : Nat} {s : State} (hs : ReaderFill cap s) (p : Bool) :
    (p = true ∧ unknownVerdict p s = (none, s)) ∨
    (p = false ∧ s.rxlen < 2 ∧ unknownVerdict p s = (some (.success s.rxlen), s.logEvent .wCrc)) ∨
    (p = false ∧ 2 ≤ s.rxlen ∧ CrcOk s.rxFrame ∧
      unknownVerdict p s = (some (.success s.rxlen), s.setCrc (crc16 (s.rxFrame.take (s.rxlen - 2))))) ∨
    (p = false ∧ 2 ≤ s.rxlen ∧ ¬CrcOk s.rxFrame ∧
      unknownVerdict p s =
        (some (.success s.rxlen), (s.setCrc (crc16 (s.rxFrame.take (s.rxlen - 2)))).logEvent .wCrc)) := by
  unfold unknownVerdict
  cases p with
  | true => exact .inl ⟨rfl, rfl⟩
  | false =>
    rw [if_neg Bool.false_ne_true, hs.crcCovered]
    rcases Nat.lt_or_ge s.rxlen 2 with hlt | hge
    · exact .inr (.inl ⟨rfl, hlt, if_pos hlt⟩)
    rw [if_neg hge.not_gt]
    have hcrc := hs.crcMatches_iff hge
    by_cases hok : CrcOk s.rxFrame
    · exact .inr (.inr (.inl ⟨rfl, hge, hok, if_pos (hcrc.mpr hok)⟩))
    · exact .inr (.inr (.inr ⟨rfl, hge, hok, if_neg (mt hcrc.mp hok)⟩))

/-! ### The loop is a run of the pseudocode -/

section Run

variable {l : LinkId} {cap : Nat} {exp : Expectation} {s u t : State} {p : Bool} {o : ReadOutcome}

/-- Where the tests after a chunk answer an outcome, the pseudocode returns it. -/
theorem rtuRun_of_tests_some (hc : Chunk l cap s u p) (hu : ReaderFill cap u) (h : rtuTests exp p u = (some o, t)) :
    RtuRun l cap exp s o t := by
  by_cases h2 : u.rxlen = 2 ∧ p = false
  · cases (rtuTests_of_two h2).symm.trans h
    obtain ⟨hlen, rfl⟩ := h2
    exact .short2 s u hc hlen
  cases exp with
  | known e =>
    rw [rtuTests_known h2] at h
    rcases knownVerdict_cases hu e p with ⟨hlen, hok, hv⟩ | ⟨hlen, hbad, hv⟩ | ⟨hlt, hv⟩ | ⟨hlt, h5, rfl, hv⟩ | ⟨-, -, hv⟩ <;>
      cases hv.symm.trans h
    · exact .exact s u p e _ hc rfl hlen hu.frame hok
    · exact .mismatch s u p e _ hc rfl hlen hu.frame hbad
    · exact .tooMuchData s u p e hc rfl h2 hlt
    · exact .shortcut s u e hc rfl h5 (h5 ▸ hlt)
  | unknown =>
    rw [rtuTests_unknown h2] at h
    rcases unknownVerdict_cases hu p with ⟨-, hv⟩ | ⟨rfl, hlt, hv⟩ | ⟨rfl, hge, hok, hv⟩ | ⟨rfl, hge, hbad, hv⟩ <;>
      cases hv.symm.trans h
    · exact .quietOne s u hc rfl hlt
    · exact .quietGood s u _ hc rfl (fun hlen => h2 ⟨hlen, rfl⟩) hu.frame hok
    · exact .quietBad s u _ hc rfl (hge.lt_of_ne fun hlen => h2 ⟨hlen.symm, rfl⟩) hu.frame hbad

/-- Where the tests after a chunk answer none, they change nothing and the pseudocode reads on. -/
theorem rtuRun_of_tests_none {w : State} (hc : Chunk l cap s u p) (hu : ReaderFill cap u)
    (h : rtuTests exp p u = (none, w)) (hrun : RtuRun l cap exp w o t) : RtuRun l cap exp s o t := by
  by_cases h2 : u.rxlen = 2 ∧ p = false
  · cases (rtuTests_of_two h2).symm.trans h
  cases exp with
  | known e =>
    rw [rtuTests_known h2] at h
    rcases knownVerdict_cases hu e p with ⟨-, -, hv⟩ | ⟨-, -, hv⟩ | ⟨-, hv⟩ | ⟨-, -, -, hv⟩ | ⟨hlt, h5, hv⟩ <;>
      cases hv.symm.trans h
    exact .readOnKnown s u t p e o hc rfl hlt h2 h5 hrun
  | unknown =>
    rw [rtuTests_unknown h2] at h
    rcases unknownVerdict_cases hu p with ⟨rfl, hv⟩ | ⟨-, -, hv⟩ | ⟨-, -, -, hv⟩ | ⟨-, -, -, hv⟩ <;>
      cases hv.symm.trans h
    exact .readOnUnknown s u t o hc rfl hrun

/-- The loop of RDRTU is a run of R135's pseudocode: each iteration that goes past its LinkRecv is a chunk with the tests
behind it. -/
theorem readLoop_rtuRun (l : LinkId) (cap : Nat) (exp : Expectation) (s : State) :
    RtuRun l cap exp (s.setRxlen 0) (readLoop l cap (rtuVerdict l exp) cap (s.setRxlen 0)).1
      (readLoop l cap (rtuVerdict l exp) cap (s.setRxlen 0)).2 := by
  refine readLoop_run .aborted .bufferFull .disconnected .timedOut .rawError ?_ ?_ (rtuVerdict_keepsFrame l exp) cap
    (s.setRxlen 0) (readerFill_start cap s) (Nat.le_add_left _ _)
  · exact fun s b bs o u hr hd hfill hv => rtuRun_of_tests_some ⟨hr, b, bs, hd, rfl, rfl⟩ ⟨hfill.le, hfill.held⟩ hv
  · exact fun s b bs u o t hr hd hfill hv hrun =>
      rtuRun_of_tests_none ⟨hr, b, bs, hd, rfl, rfl⟩ ⟨hfill.le, hfill.held⟩ hv hrun

/-! ### What a success means -/

/-- What a success of RDRTU returns right after its last chunk, which left `v` and the LinkPending answer `p`: the length, never
two, of a frame of the expected length that checks, of the 5-byte shortcut, or of the quiet end (43 R142 to R146). -/
structure RtuSuccess (exp : Expectation) (n : Nat) (t v : State) (p : Bool) : Prop where
  length : n = v.rxlen
  notTwo : n ≠ 2
  env : t.env = v.env
  rxlen : t.rxlen = v.rxlen
  rxb : t.rxb = v.rxb
  quiet : exp = .unknown → p = false
  exactOrShortcut : ∀ e, exp = .known e →
    (n = e.toNat + 3 ∧ ∃ bs, bs.length = n ∧ Holds t.rxb bs ∧ CrcOk bs) ∨ (n = 5 ∧ n < e.toNat + 3 ∧ p = false)

/-- A run that ends in a success ends with a chunk behind the chunks it read on from. -/
theorem rtuRun_success {n : Nat} (h : RtuRun l cap exp s o t) (ho : o = .success n) :
    ∃ u v p, Chunks l cap s u ∧ Chunk l cap u v p ∧ RtuSuccess exp n t v p := by
  induction h with
  | aborted | bufferFull | disconnected | timedOut | rawError | short2 | mismatch | tooMuchData => cases ho
  | exact s v p e bs hc he hlen hf hok =>
    cases ho
    cases he
    refine ⟨s, v, p, .none s, hc, rfl, by omega, rfl, rfl, rfl, nofun, ?_⟩
    rintro _ ⟨⟩
    exact .inl ⟨hlen, bs, hf.1, hf.2, hok⟩
  | shortcut s v e hc he h5 hlt =>
    cases ho
    cases he
    refine ⟨s, v, false, .none s, hc, h5.symm, by omega, rfl, rfl, rfl, nofun, ?_⟩
    rintro _ ⟨⟩
    exact .inr ⟨rfl, hlt, rfl⟩
  | quietGood s v _ hc he h2 =>
    cases ho
    cases he
    exact ⟨s, v, false, .none s, hc, rfl, h2, rfl, rfl, rfl, fun _ => rfl, nofun⟩
  | quietBad s v _ hc he h2 =>
    cases ho
    cases he
    exact ⟨s, v, false, .none s, hc, rfl, h2.ne', rfl, rfl, rfl, fun _ => rfl, nofun⟩
  | quietOne s v hc he h2 =>
    cases ho
    cases he
    exact ⟨s, v, false, .none s, hc, rfl, h2.ne, rfl, rfl, rfl, fun _ => rfl, nofun⟩
  | readOnKnown s w _ p _ _ hc _ _ _ _ _ ih =>
    obtain ⟨u, v, q, hchunks, hrest⟩ := ih ho
    exact ⟨u, v, q, .more s w u p hc hchunks, hrest⟩
  | readOnUnknown s w _ _ hc _ _ ih =>
    obtain ⟨u, v, q, hchunks, hrest⟩ := ih ho
    exact ⟨u, v, q, .more s w u true hc hchunks, hrest⟩

end Run

/-! ### The statements about RDRTU -/

/-- Settles O30: on an open link the operation is its loop, and the loop is a run of the pseudocode. -/
theorem rtuReaderRefinesItsPseudocode : Obligations.RtuReaderRefinesItsPseudocode :=
  fun l cap exp s hc ho => ⟨_, _, readLoop_rtuRun l cap exp s, execReader_of_open hc ho⟩

/-- Settles O32: a success is read off the run the loop is, and the chunks of that run keep the reader filled. -/
theorem rtuSuccessIsExactOrShortcutOrQuiet : Obligations.RtuSuccessIsExactOrShortcutOrQuiet := by
  intro l cap exp s t n h hn
  obtain rfl := execReader_eq_next h
  obtain ⟨u, v, p, hchunks, hchunk, hs⟩ := rtuRun_success (readLoop_rtuRun l cap exp s) hn
  obtain ⟨hfill, hgrows⟩ := chunk_fill hchunk (chunks_fill hchunks (readerFill_start cap s))
  obtain ⟨frame, hframe⟩ := hfill.held
  obtain ⟨rfl, hnotTwo, henv, hlen, hrxb, hquiet, hknown⟩ := hs
  exact ⟨hlen.symm, Nat.one_le_of_lt hgrows, hfill.le, hnotTwo,
    fun i hi => hrxb ▸ Buffer.held_of_slice hframe hi, u, v, p, hchunks, hchunk, henv, hlen, hrxb, hquiet, hknown⟩

end Sys2Proof.Machine
end

section
/-! SUPPORT. O25 to O28: the length estimator. Every operation hands back a function of the quantity (`Estimates`); which function
is the row's, what the function is worth as a natural number is said apart from any operation. -/

namespace Sys2Proof.Machine

/-! ### The operations -/

/-- The operation completes in every state, handing back `f` of its quantity and changing nothing else (44_length_estimator
R160). -/
def Estimates (i : Option Word16 → Instr) (f : Option Word16 → Expectation) : Prop :=
  ∀ q s, exec (i q) s = .next (s.setResult (.expectation (f q)))

theorem est_estimates (fc : Byte) : Estimates (.est fc) (estimate fc) := fun _ _ => rfl

theorem bitReads_estimate :
    ∀ i ∈ [Instr.est 0x01#8, Instr.est 0x02#8, Instr.estFc01, Instr.estFc02], Estimates i estBitRead := by
  simp only [List.forall_mem_cons]
  exact ⟨est_estimates 0x01#8, est_estimates 0x02#8, fun _ _ => rfl, fun _ _ => rfl, List.forall_mem_nil _⟩

theorem registerReads_estimate :
    ∀ i ∈ [Instr.est 0x03#8, Instr.est 0x04#8, Instr.estFc03, Instr.estFc04], Estimates i estRegisterRead := by
  simp only [List.forall_mem_cons]
  exact ⟨est_estimates 0x03#8, est_estimates 0x04#8, fun _ _ => rfl, fun _ _ => rfl, List.forall_mem_nil _⟩

theorem writes_estimate :
    ∀ i ∈ [Instr.est 0x05#8, Instr.est 0x06#8, Instr.est 0x0F#8, Instr.est 0x10#8,
      Instr.estFc05, Instr.estFc06, Instr.estFc0F, Instr.estFc10], Estimates i estEcho := by
  simp only [List.forall_mem_cons]
  exact ⟨est_estimates 0x05#8, est_estimates 0x06#8, est_estimates 0x0F#8, est_estimates 0x10#8,
    fun _ _ => rfl, fun _ _ => rfl, fun _ _ => rfl, fun _ _ => rfl, List.forall_mem_nil _⟩

/-! ### The values -/

/-- The quantity grown by 7 fits 18 bits, so the shift divides the whole sum (44_length_estimator R161). -/
theorem estBitRead_some (q : Word16) :
    ∃ e : Word18, e.toNat = 2 + (q.toNat + 7) / 8 ∧ estBitRead (some q) = .known e := by
  refine ⟨_, ?_, rfl⟩
  have hq := q.isLt
  simp only [BitVec.toNat_add, BitVec.toNat_ushiftRight, BitVec.toNat_setWidth, BitVec.toNat_ofNat, Nat.shiftRight_eq_div_pow]
  omega

/-- Twice the largest quantity and 2 is 2 ^ 17, which 18 bits hold (44_length_estimator R162). -/
theorem estRegisterRead_some (q : Word16) :
    ∃ e : Word18, e.toNat = 2 + 2 * q.toNat ∧ estRegisterRead (some q) = .known e := by
  refine ⟨_, ?_, rfl⟩
  have hq := q.isLt
  simp only [BitVec.toNat_add, BitVec.toNat_mul, BitVec.toNat_setWidth, BitVec.toNat_ofNat]
  omega

/-! ### The codes without a row of their own -/

/-- No row of the table has one of the codes the default row is for (44_length_estimator R164). -/
theorem not_tabled_of_range {fc : Byte} (h : fc.toNat = 0 ∨ (0x07 ≤ fc.toNat ∧ fc.toNat ≤ 0x0E) ∨ 0x11 ≤ fc.toNat) :
    tabledFcs.contains fc = false := by
  have hrows : ∀ c ∈ tabledFcs, ¬(c.toNat = 0 ∨ (0x07 ≤ c.toNat ∧ c.toNat ≤ 0x0E) ∨ 0x11 ≤ c.toNat) := by decide
  exact Bool.eq_false_iff.mpr fun hmem => hrows fc (List.contains_iff_mem.mp hmem) h

theorem estimate_of_not_tabled {fc : Byte} (q : Option Word16) (h : tabledFcs.contains fc = false) :
    estimate fc q = .unknown := by
  simp only [tabledFcs, List.contains_eq_mem, decide_eq_false_iff_not, List.mem_cons, List.not_mem_nil, not_or] at h
  simp [estimate, h]

theorem exec_estOther_of_not_tabled {fc : Byte} (q : Option Word16) (s : State) (h : tabledFcs.contains fc = false) :
    exec (.estOther fc q) s = .next (s.setResult (.expectation .unknown)) :=
  if_neg (Bool.eq_false_iff.mp h)

/-! ### The statements about the length estimator -/

/-- Settles O25: the four operations hand back the bit reads' expectation, whose value is the one R161 gives. -/
theorem bitReadRowsEstimateTwoPlusEighth : Obligations.BitReadRowsEstimateTwoPlusEighth := by
  refine fun i hi s => ⟨bitReads_estimate i hi none s, fun q => ?_⟩
  obtain ⟨e, hvalue, hknown⟩ := estBitRead_some q
  exact ⟨e, hvalue, hknown ▸ bitReads_estimate i hi (some q) s⟩

/-- Settles O26: the four operations hand back the register reads' expectation, whose value is the one R162 gives. -/
theorem registerReadRowsEstimateTwoPlusDouble : Obligations.RegisterReadRowsEstimateTwoPlusDouble := by
  refine fun i hi s => ⟨registerReads_estimate i hi none s, fun q => ?_⟩
  obtain ⟨e, hvalue, hknown⟩ := estRegisterRead_some q
  exact ⟨e, hvalue, hknown ▸ registerReads_estimate i hi (some q) s⟩

/-- Settles O27: the eight operations hand back the writes' expectation, which does not look at the quantity. -/
theorem writeRowsEstimateFive : Obligations.WriteRowsEstimateFive :=
  fun i hi => writes_estimate i hi

/-- Settles O28: both operations answer by the table, and these codes are not in it. -/
theorem otherFunctionCodesAreUnknown : Obligations.OtherFunctionCodesAreUnknown := by
  intro fc q s hrange
  have h := not_tabled_of_range hrange
  exact ⟨estimate_of_not_tabled q h ▸ est_estimates fc q s, exec_estOther_of_not_tabled q s h⟩

end Sys2Proof.Machine
end

section
/-! SUPPORT. O43, O44 and O47: the converter operations of direction T2R on a frame held in RXB (45 R172, R176), and the lengths all
four converter operations refuse. -/

namespace Sys2Proof.Machine

open Sys2Proof.Spec

/-! ### Bytes held by a buffer -/

theorem slice_of_holds {buf : Buffer} {bs : List Byte} (h : Holds buf bs) : Buffer.slice buf 0 bs.length = some bs :=
  Buffer.slice_eq bs fun i hi => by rw [Nat.zero_add, h i hi]

theorem holds_of_append {buf : Buffer} {bs cs : List Byte} (h : Holds buf (bs ++ cs)) : Holds buf bs := fun i hi => by
  rw [h i (by simp only [List.length_append]; omega), List.getElem?_append_left hi]

theorem holds_putAll (bs : List Byte) (buf : Buffer) : Holds (Buffer.putAll 0 bs buf) bs := fun i hi =>
  Buffer.get_putAll_inside bs buf (Nat.zero_le i) (by omega)

theorem rxRead_of_holds {s : State} {bs : List Byte} (hlen : bs.length ≤ s.rxlen) (h : Holds s.rxb bs) :
    rxRead 0 bs.length s = .next bs :=
  rxRead_of_slice (by omega) (slice_of_holds h)

/-- A frame inside the capacity is staged. -/
theorem stage_eq_stageFrame {frame : List Byte} (s : State) (h : frame.length ≤ 264) :
    stage frame s = .next (s.stageFrame frame) := stage_of_length s h

/-- Past the frame staged, TXB is left alone. -/
theorem stageFrame_get_past (s : State) (frame : List Byte) {a : Nat} (h : frame.length ≤ a) :
    Buffer.get (s.stageFrame frame).txb a = Buffer.get s.txb a :=
  Buffer.get_putAll_outside frame s.txb (.inr (by omega))

/-! ### An operation that hands nothing back -/

/-- A meaning made an operation: it ends with nothing handed back (log 15). -/
def completed (x : Out) : Out := andThen x fun t => .next (t.setResult .none)

theorem completed_of_next {x : Out} {t : State} (h : x = .next t) : completed x = .next (t.setResult .none) := by
  rw [h]
  rfl

theorem completed_of_refused {x : Out} {r : Refusal} (h : x = .refused r) : completed x = .refused r :=
  andThen_of_refused h

theorem completed_eq_next {x : Out} {v : State} (h : completed x = .next v) :
    ∃ t, x = .next t ∧ v = t.setResult .none := by
  obtain ⟨t, ht, h⟩ := andThen_eq_next h
  cases h
  exact ⟨t, ht, rfl⟩

theorem exec_t2rReq (n : Nat) (s : State) : exec (.t2rReq n) s = completed (t2rReq n s) := rfl

theorem exec_t2rRsp (m : Nat) (s : State) : exec (.t2rRsp m) s = completed (t2rRsp m s) := rfl

theorem exec_r2tReq (n : Nat) (s : State) : exec (.r2tReq n) s = completed (r2tReq n s) := rfl

theorem exec_r2tRsp (m : Nat) (s : State) : exec (.r2tRsp m) s = completed (r2tRsp m s) := rfl

/-! ### The length operands -/

theorem rtuLength_of_short {m : Nat} (x : Out) (h : m < 3) : rtuLength m x = .refused (.shortRtuFrame m) := if_pos h

theorem rtuLength_of_long {m : Nat} (x : Out) (h : 260 < m) : rtuLength m x = .refused (.frameLength m) := by
  rw [rtuLength, if_neg (by omega), if_neg (by simp only [Config.cap]; omega)]

theorem rtuLength_of_range {m : Nat} (x : Out) (h : 3 ≤ m ∧ m ≤ 260) : rtuLength m x = x := by
  rw [rtuLength, if_neg (by omega), if_pos (by simp only [Config.cap]; omega)]

theorem mbapLength_of_range {n : Nat} (x : Out) (h : 7 ≤ n ∧ n ≤ 260) : mbapLength n x = x := if_pos h

theorem mbapLength_of_out_of_range {n : Nat} (x : Out) (h : n < 7 ∨ 260 < n) :
    mbapLength n x = .refused (.frameLength n) :=
  if_neg (by simp only [Config.cap]; omega)

/-! ### The header -/

theorem hiByte_ofNat (n : Nat) : hiByte (BitVec.ofNat 16 n) = BitVec.ofNat 8 (n / 256) := by
  apply BitVec.eq_of_toNat_eq
  rw [hiByte_toNat, BitVec.toNat_ofNat, BitVec.toNat_ofNat]
  omega

theorem loByte_ofNat (n : Nat) : loByte (BitVec.ofNat 16 n) = BitVec.ofNat 8 n := by
  apply BitVec.eq_of_toNat_eq
  rw [loByte_toNat, BitVec.toNat_ofNat, BitVec.toNat_ofNat]
  omega

/-- The six header bytes one by one. -/
theorem mbapHeader_eq (tid pid : Word16) (n : Nat) :
    mbapHeader tid pid n =
      [hiByte tid, loByte tid, hiByte pid, loByte pid, BitVec.ofNat 8 (n / 256), BitVec.ofNat 8 n] := by
  rw [← hiByte_ofNat, ← loByte_ofNat]
  rfl

/-! ### The expectation of a request -/

/-- The expectation T2R.REQ computes from the whole frame is the rule's, read off the bytes after the header: a body of six bytes
or more has a quantity, a shorter one of at least two has a function code alone. -/
theorem requestExpectation_eq (t1 t0 p1 p0 l1 l0 : Byte) (body : List Byte) :
    requestExpectation ([t1, t0, p1, p0, l1, l0] ++ body) = Spec.requestExpectation body := by
  match body with
  | [] => rfl
  | [_] => rfl
  | [_, _] => rfl
  | [_, _, _] => rfl
  | [_, _, _, _] => rfl
  | [_, _, _, _, _] => rfl
  | b :: fc :: x :: y :: qhi :: qlo :: rest =>
    have hq : requestQuantity ([t1, t0, p1, p0, l1, l0] ++ b :: fc :: x :: y :: qhi :: qlo :: rest) = some (qhi ++ qlo) :=
      (if_pos (by simp)).trans (congrArg some (be16_pair qhi qlo))
    exact congrArg (estimate fc) hq

/-! ### The two conversions -/

/-- T2R.REQ of a held frame (45 R172). -/
theorem t2rReq_of_holds {s : State} {t1 t0 p1 p0 l1 l0 : Byte} {body : List Byte} (h1 : 1 ≤ body.length)
    (h2 : body.length ≤ 254) (hlen : body.length + 6 ≤ s.rxlen) (h : Holds s.rxb ([t1, t0, p1, p0, l1, l0] ++ body)) :
    t2rReq (body.length + 6) s = .next ((((s.saveIds (t1 ++ t0) (p1 ++ p0)).setCrc (crc16 body)).stageFrame
      (rtuFrame body)).setExplen (Spec.requestExpectation body)) := by
  have hread : rxRead 0 (body.length + 6) s = .next ([t1, t0, p1, p0, l1, l0] ++ body) :=
    rxRead_of_holds (bs := [t1, t0, p1, p0, l1, l0] ++ body) hlen h
  have htid : be16At 0 ([t1, t0, p1, p0, l1, l0] ++ body) = t1 ++ t0 := be16_pair t1 t0
  have hpid : be16At 2 ([t1, t0, p1, p0, l1, l0] ++ body) = p1 ++ p0 := be16_pair p1 p0
  have hdrop : ([t1, t0, p1, p0, l1, l0] ++ body).drop 6 = body := rfl
  rw [t2rReq, mbapLength_of_range _ (by omega), hread, andThen_next, htid, hpid, hdrop, requestExpectation_eq,
    stage_eq_stageFrame _ (by rw [rtuFrame_length]; omega), andThen_next]

/-- T2R.RSP of a held frame (45 R176). -/
theorem t2rRsp_of_holds {s : State} {body : List Byte} (h1 : 1 ≤ body.length) (h2 : body.length ≤ 258)
    (hlen : body.length ≤ s.rxlen) (h : Holds s.rxb body) :
    t2rRsp (body.length + 2) s = .next (s.stageFrame (mbapHeader s.savedTid s.savedPid body.length ++ body)) := by
  rw [t2rRsp, rtuLength_of_range _ (by omega), Nat.add_sub_cancel, rxRead_of_holds hlen h, andThen_next,
    stage_eq_stageFrame _ (by rw [List.length_append, mbapHeader_length]; omega)]

/-! ### The statements about the conversions -/

/-- Settles O43: the conversion of the held frame, whose staged frame is the body with its CRC. -/
theorem t2rRequestIsConverted : Obligations.T2rRequestIsConverted := by
  intro s t1 t0 p1 p0 l1 l0 body h1 h2 hlen h
  refine ⟨_, ?_, holds_putAll (rtuFrame body) s.txb, fun a ha => ?_⟩
  · rw [exec_t2rReq, completed_of_next (t2rReq_of_holds h1 h2 hlen h), ← rtuFrame_length]
    rfl
  · exact stageFrame_get_past s _ ((rtuFrame_length body).trans_le ha)

/-- Settles O44: the conversion of the held frame, which reads nothing of its CRC bytes. -/
theorem t2rResponseIsConverted : Obligations.T2rResponseIsConverted := by
  refine ⟨fun s => completed_of_refused (x := t2rRsp 1 s) (rtuLength_of_short _ (by omega)), fun s body lo hi h1 h2 hlen h => ?_⟩
  have hframe : (mbapHeader s.savedTid s.savedPid body.length ++ body).length = body.length + 6 := by
    rw [List.length_append, mbapHeader_length, Nat.add_comm]
  rw [← mbapHeader_eq]
  refine ⟨_, ?_, holds_putAll _ s.txb, fun a ha => ?_⟩
  · rw [exec_t2rRsp, completed_of_next (t2rRsp_of_holds h1 h2 (by omega) (holds_of_append h)), ← hframe]
    rfl
  · exact stageFrame_get_past s _ (hframe.trans_le ha)

/-- Settles O47: each operation passes on the refusal of its length operand. -/
theorem frameLengthsOutOfRangeAreRefused : Obligations.FrameLengthsOutOfRangeAreRefused := by
  intro n s
  rw [exec_t2rReq, exec_t2rRsp, exec_r2tReq, exec_r2tRsp]
  refine ⟨fun h => ⟨?_, ?_⟩, fun h => ⟨?_, ?_⟩, fun h => ⟨?_, ?_⟩⟩
  · exact completed_of_refused (rtuLength_of_short _ h)
  · exact completed_of_refused (rtuLength_of_short _ h)
  · exact completed_of_refused (rtuLength_of_long _ h)
  · exact completed_of_refused (rtuLength_of_long _ h)
  · exact completed_of_refused (mbapLength_of_out_of_range _ h)
  · exact completed_of_refused (mbapLength_of_out_of_range _ h)

end Sys2Proof.Machine
end

section
/-! SUPPORT. O49 to O53 and O58: the state rules of the sequencer against the operations they issue (45 R170 to R177). A rule
hands each operation's state on to the next without what was handed back (log 15); no operation reads that (`IgnoresResult`), so
the rule answers what the operations issued one by one answer. -/

namespace Sys2Proof.Machine

open Sys2Proof.Spec

/-! ### What was handed back is not read -/

/-- An operation that does not read what the last one handed back. -/
def IgnoresResult (f : State → Out) : Prop := ∀ s r, f (s.setResult r) = mapNext (·.setResult r) (f s)

theorem mapNext_eq_next {α β : Type} {f : α → β} {x : Host.Outcome α Fault Refusal} {b : β} (h : mapNext f x = .next b) :
    ∃ a, x = .next a ∧ b = f a := by
  cases x with
  | next a =>
    cases h
    exact ⟨a, rfl, rfl⟩
  | fault r => cases h
  | refused r => cases h

theorem stage_ignoresResult (frame : List Byte) : IgnoresResult (stage frame) := fun _ _ => ite_mapNext rfl rfl

theorem t2rReq_ignoresResult (n : Nat) : IgnoresResult (t2rReq n) := fun s r =>
  ite_mapNext (andThen_mapNext_read fun frame => andThen_mapNext
    (stage_ignoresResult (rtuFrame (frame.drop 6)) ((s.saveIds (be16At 0 frame) (be16At 2 frame)).setCrc _) r)
    fun _ _ => rfl) rfl

theorem t2rRsp_ignoresResult (m : Nat) : IgnoresResult (t2rRsp m) := fun s r =>
  ite_mapNext rfl (ite_mapNext (andThen_mapNext_read fun _ => stage_ignoresResult _ s r) rfl)

theorem recordSend_setResult (l : LinkId) (frame : List Byte) (s : State) (r : OpResult) :
    recordSend l frame (s.setResult r) = Prod.map id (·.setResult r) (recordSend l frame s) := by
  simp only [recordSend, State.setResult_env]
  split <;> rfl

theorem sendStaged_setResult (l : LinkId) (s : State) (r : OpResult) :
    sendStaged l (s.setResult r) = mapNext (Prod.map id (·.setResult r)) (sendStaged l s) :=
  ite_mapNext (ite_mapNext (andThen_mapNext_read fun frame => congrArg Host.Outcome.next (recordSend_setResult l frame s r))
    rfl) rfl

/-! ### The links stay open up to TEARDOWN -/

theorem Updates.bothOpen {s t : State} (h : Updates s t) (hs : BothOpen s) : BothOpen t := by
  induction h with
  | refl => exact hs
  | tail _ hu ih =>
    cases hu
    case env e hopen _ => exact ⟨(hopen .M).trans ih.1, (hopen .S).trans ih.2⟩
    all_goals exact ih

theorem teardown_of_bothOpen (o : FatalOutcome) {s : State} (h : BothOpen s) : teardown o s = .next (tornDown s) :=
  teardown_of_open h.1 h.2

/-! ### The two forms of a state rule -/

@[simp] theorem afterRead_success (k : Nat → State → Out) (n : Nat) (t : State) : afterRead k (.success n, t) = k n t := rfl

@[simp] theorem afterRead_timeout (k : Nat → State → Out) (t : State) : afterRead k (.timeout, t) = .next t := rfl

@[simp] theorem afterRead_fatal (k : Nat → State → Out) (o : FatalOutcome) (t : State) :
    afterRead k (.fatal o, t) = teardown o t := rfl

@[simp] theorem afterSend_ok (k : State → Out) (t : State) : afterSend k (none, t) = k t := rfl

@[simp] theorem afterSend_error (k : State → Out) (a : Category) (t : State) :
    afterSend k (some a, t) = teardown (.rawError a) t := rfl

/-- A reading state, told by the state `u` its reader leaves: the conversion `k` of `u` on a success, `u` itself on Timeout, `u`
torn down on a fatal outcome. -/
theorem reading_rule {l : LinkId} {cap : Nat} {verdict : State → Option ReadOutcome × State} {s u : State}
    {k : Nat → State → Out} {c : CState} {cyc : Out} (hopen : BothOpen s)
    (hup : ∀ p, readFrame l cap verdict s = .next p → Updates s p.2) (hk : ∀ n, IgnoresResult (k n))
    (hcyc : cyc = completed (andThen (readFrame l cap verdict s)
      (afterRead fun n t => andThen (k n t) fun w => .next (w.setCState c))))
    (hu : execReader l cap verdict s = .next u) :
    (∀ n v, u.outcome = .success n → completed (k n u) = .next v → cyc = .next { v with cstate := c, result := .none }) ∧
    (u.outcome = .timeout → cyc = .next { u with result := .none }) ∧
    (∀ o, u.outcome = .fatal o → cyc = .next { tornDown u with result := .none }) := by
  obtain ⟨⟨o, t⟩, hp, hu⟩ := andThen_eq_next hu
  cases hu
  have hleft : BothOpen t := (hup _ hp).bothOpen hopen
  have houtcome : t.outcome = o := by
    obtain ⟨-, -, h⟩ := readFrame_eq_next hp
    cases h
    rfl
  rw [hp, andThen_next] at hcyc
  refine ⟨fun n v ho hv => ?_, fun ho => ?_, fun f ho => ?_⟩
  · obtain rfl : o = .success n := houtcome.symm.trans ho
    obtain ⟨w', hw', rfl⟩ := completed_eq_next hv
    rw [hk n] at hw'
    obtain ⟨w, hw, rfl⟩ := mapNext_eq_next hw'
    rw [hcyc, afterRead_success, hw]
    rfl
  · obtain rfl : o = .timeout := houtcome.symm.trans ho
    rw [hcyc, afterRead_timeout]
    rfl
  · obtain rfl : o = .fatal f := houtcome.symm.trans ho
    rw [hcyc, afterRead_fatal, teardown_of_bothOpen f hleft]
    rfl

/-- A forwarding state, told by the state `v` its SEND leaves: `v` with CSTATE advanced on Ok, `v` torn down on an error. -/
theorem forwarding_rule {l : LinkId} {f v : State} {r : OpResult} {c : CState} {cyc : Out} (hopen : BothOpen f)
    (hcyc : cyc = completed (andThen (sendStaged l f) (afterSend fun w => .next (w.setCState c))))
    (hv : exec (.send l) (f.setResult r) = .next v) :
    (v.result = .sendOk → cyc = .next { v with cstate := c, result := .none }) ∧
    (∀ e, v.result = .sendError e → cyc = .next { tornDown v with result := .none }) := by
  obtain ⟨q, hq, hv⟩ := andThen_eq_next hv
  cases hv
  rw [sendStaged_setResult] at hq
  obtain ⟨⟨a, t⟩, hp, rfl⟩ := mapNext_eq_next hq
  have hleft : BothOpen t := (sendStaged_updates hp).bothOpen hopen
  rw [hp, andThen_next] at hcyc
  cases a with
  | none =>
    rw [afterSend_ok] at hcyc
    exact ⟨fun _ => hcyc, fun e he => by contradiction⟩
  | some a =>
    rw [afterSend_error, teardown_of_bothOpen _ hleft] at hcyc
    exact ⟨fun he => by contradiction, fun e _ => hcyc⟩

/-! ### The CYC operations -/

theorem exec_cycT2r {s : State} (h : s.dir = .t2r) : exec .cycT2r s = completed (stepT2r s) := if_pos h

theorem exec_cycR2t {s : State} (h : s.dir = .r2t) : exec .cycR2t s = completed (stepR2t s) := if_pos h

/-- Settles O49: the rule of state Idle, at each direction. -/
theorem idleStepBeginsTheCycle : Obligations.IdleStepBeginsTheCycle := by
  refine fun s hc => ⟨fun hd => ?_, fun hd => ?_⟩
  · rw [exec_cycT2r hd, stepT2r, hc]
    rfl
  · rw [exec_cycR2t hd, stepR2t, hc]
    rfl

/-- Settles O50: a reading state, with RDMBAP and T2R.REQ. -/
theorem t2rAwaitMasterRequestStep : Obligations.T2rAwaitMasterRequestStep := by
  intro s u hd hc hopen hu
  refine reading_rule hopen (fun _ => rdMbap_updates) t2rReq_ignoresResult ?_ hu
  rw [exec_cycT2r hd, stepT2r, hc]
  rfl

/-- Settles O51: a forwarding state after FLUSH, which hands nothing back. -/
theorem t2rForwardToSlaveStep : Obligations.T2rForwardToSlaveStep := by
  intro s u v hd hc hopen hu hv
  obtain ⟨f, hf, rfl⟩ := completed_eq_next hu
  refine forwarding_rule ((flushSlave_updates hf).bothOpen hopen) ?_ hv
  rw [exec_cycT2r hd, stepT2r, hc]
  simp only [t2rForwardSlave, hf, andThen_next]

/-- Settles O52: a reading state, with RDRTU and T2R.RSP; that EXPLEN is kept and nothing is sent is what every reader leaves
alone. -/
theorem t2rAwaitSlaveResponseStep : Obligations.T2rAwaitSlaveResponseStep := by
  intro s u hd hc hopen hu
  obtain ⟨hleaves, -, hother, -, -, hcalls, -⟩ :=
    readersChangeOnlyWhatTheyWrite .S 260 s.explen _ s u (List.mem_pair.mpr (.inr rfl)) hu
  obtain ⟨-, -, -, -, -, -, -, hexplen, -⟩ := hleaves
  have hrule : exec .cycT2r s = completed (t2rAwaitSlave s) := by rw [exec_cycT2r hd, stepT2r, hc]
  obtain ⟨hsuccess, htimeout, hfatal⟩ :=
    reading_rule hopen (fun _ => rdRtu_updates) t2rRsp_ignoresResult hrule hu
  exact ⟨hsuccess, fun ho => ⟨htimeout ho, hexplen, hcalls, congrArg Link.calls (hother .M (by decide))⟩, hfatal⟩

/-- Settles O53: a forwarding state, whose SEND is the first operation of the rule, at each direction. -/
theorem forwardToMasterStep : Obligations.ForwardToMasterStep := by
  intro s u cyc hdir hc hopen hu
  refine forwarding_rule (r := s.result) hopen ?_ hu
  rcases hdir with ⟨hd, rfl⟩ | ⟨hd, rfl⟩
  · rw [exec_cycT2r hd, stepT2r, hc]
    rfl
  · rw [exec_cycR2t hd, stepR2t, hc]
    rfl

/-- Settles O58: each CYC operation's guard. -/
theorem otherDirectionsCycleIsRefused : Obligations.OtherDirectionsCycleIsRefused :=
  ⟨fun _ hd => if_neg (by simp [hd]), fun _ hd => if_neg (by simp [hd])⟩

end Sys2Proof.Machine
end

section
/-! SUPPORT. O59: a T2R exchange of one-chunk frames (45 R170, R178, R180). Each operation is said once under the answers its link
gives (a frame in one chunk, a send accepted); each step of the exchange is then the statement about its state rule used with
those operations, and the exchange is the five steps in a row. -/

namespace Sys2Proof.Machine

open Sys2Proof.Spec

/-! ### A frame read in one chunk -/

/-- The state a reader tests after a whole frame came in its first chunk. -/
def oneChunk (l : LinkId) (s : State) (frame : List Byte) : State := iterationState l 260 (s.setRxlen 0) frame

@[simp] theorem oneChunk_rxlen (l : LinkId) (s : State) (frame : List Byte) : (oneChunk l s frame).rxlen = frame.length :=
  Nat.zero_add _

theorem oneChunk_rxFrame (l : LinkId) (s : State) (frame : List Byte) : (oneChunk l s frame).rxFrame = frame :=
  rxFrame_append (s := (s.setRxlen 0).setEnv _) (bs := []) rfl frame

theorem oneChunk_holds (l : LinkId) (s : State) (frame : List Byte) : Holds (oneChunk l s frame).rxb frame :=
  holds_putAll frame s.rxb

/-- The whole frame has been read: the outcome is a success of its length, and RXB holds it. -/
structure FrameRead (frame : List Byte) (s u : State) : Prop where
  outcome : u.outcome = .success frame.length
  rxlen : u.rxlen = frame.length
  holds : Holds u.rxb frame
  leaves : ReaderLeaves s u

/-- The loop ends in an iteration whose tests give an outcome. -/
theorem readLoop_of_verdict {l : LinkId} {cap room : Nat} {verdict : State → Option ReadOutcome × State} {s u : State}
    {b : Byte} {bs : List Byte} {o : ReadOutcome} (hcan : s.env.cancelNow = false) (hne : s.rxlen ≠ cap)
    (hans : s.env.afterSample.recvAnswer l (cap - s.rxlen) = .data b bs)
    (hv : verdict (iterationState l cap s (b :: bs)) = (some o, u)) :
    readLoop l cap verdict (room + 1) s = (o, u) := by
  rw [iterationState, iterationEnv] at hv
  simp only [readLoop, hcan, hne, hans, hv, if_false, Bool.false_eq_true]

/-- The known-length tests on a frame of exactly the expected length whose CRC is good (43 R143). -/
theorem knownVerdict_of_exact {e : Word18} {p : Bool} {s : State} (hlen : s.rxlen = e.toNat + 3)
    (hcrc : crcMatches s.rxFrame = true) :
    knownVerdict e p s = (some (.success s.rxlen), s.setCrc (crc16 (crcCovered s.rxFrame))) := by
  rw [knownVerdict, if_pos hlen, if_pos hcrc]

section OneChunk

variable {l : LinkId} {s u : State} {b : Byte} {bs : List Byte} {as : List RecvAnswer}
variable (hopen : (s.env.link l).isOpen = true) (hcan : s.env.cancelNow = false)
  (hans : (s.env.link l).answers = .data b bs :: as) (hfit : (b :: bs).length ≤ 260)

include hopen hcan hans hfit

/-- A reader whose tests end it on the first chunk. -/
theorem execReader_of_oneChunk {verdict : State → Option ReadOutcome × State} {o : ReadOutcome}
    (hv : verdict (oneChunk l s (b :: bs)) = (some o, u)) : execReader l 260 verdict s = .next (readerCompleted (o, u)) := by
  have hrecv : s.env.afterSample.recvAnswer l 260 = .data b bs := by
    rw [Env.recvAnswer_of_cons 260 ((congrArg Link.answers (Env.afterSample_link s.env l)).trans hans), RecvAnswer.cut,
      List.take_of_length_le (by simp only [List.length_cons] at hfit; omega)]
  rw [execReader_of_open (Nat.le_refl 260) hopen,
    readLoop_of_verdict (room := 259) (s := s.setRxlen 0) hcan (show 0 ≠ 260 by decide) hrecv hv]

/-- RDMBAP of a frame of the length its field says (42 R126). -/
theorem exec_rdmbap_of_oneChunk {t0 p1 p0 l1 l0 : Byte} {body : List Byte} (hbs : bs = [t0, p1, p0, l1, l0] ++ body)
    (hfield : l1.toNat * 256 + l0.toNat = body.length) (hbody : 1 ≤ body.length) :
    ∃ u, exec (.rdmbap l 260) s = .next u ∧ FrameRead (b :: bs) s u ∧ u.env = s.env.afterSample.afterRecv l 260 := by
  have hlen : (b :: bs).length = body.length + 6 := by rw [hbs]; rfl
  have hneed : beField 2 4 (b :: bs) = body.length := by
    rw [← hfield, hbs]
    simp [beField, beValue]
  have hv : mbapVerdict (oneChunk l s (b :: bs)) = (some (.success (b :: bs).length), oneChunk l s (b :: bs)) := by
    rw [mbapVerdict, oneChunk_rxlen, oneChunk_rxFrame, hneed, if_pos (by omega), if_pos hlen]
  have hexec := execReader_of_oneChunk hopen hcan hans hfit hv
  obtain ⟨hleaves, -⟩ := readersChangeOnlyWhatTheyWrite l 260 .unknown _ s _ (List.mem_pair.mpr (.inl rfl)) hexec
  exact ⟨_, hexec, ⟨rfl, oneChunk_rxlen l s _, oneChunk_holds l s _, hleaves⟩, rfl⟩

/-- RDRTU of a frame of exactly the expected length, with its CRC (43 R143). -/
theorem exec_rdrtu_of_oneChunk {body : List Byte} {e : Word18} (hframe : b :: bs = rtuFrame body)
    (hlen : body.length = e.toNat + 1) :
    ∃ u, exec (.rdrtu l 260 (.known e)) s = .next u ∧ FrameRead (b :: bs) s u ∧
      u.env = (s.env.afterSample.afterRecv l 260).afterPending l := by
  have hmatch : crcMatches (b :: bs) = true := by
    rw [hframe, rtuFrame, crcMatches_pair, hiByte_append_loByte]
  have hrx : (b :: bs).length = e.toNat + 3 := by rw [hframe, rtuFrame_length, hlen]
  have hv := (rtuTests_known (p := (oneChunk l s (b :: bs)).env.pendingAnswer l)
    (by rw [State.setEnv_rxlen, oneChunk_rxlen]; omega)).trans
    (knownVerdict_of_exact (s := (oneChunk l s (b :: bs)).setEnv ((oneChunk l s (b :: bs)).env.afterPending l))
      ((oneChunk_rxlen l s _).trans hrx) ((congrArg crcMatches (oneChunk_rxFrame l s _)).trans hmatch))
  have hexec := execReader_of_oneChunk (verdict := rtuVerdict l (.known e)) hopen hcan hans hfit hv
  obtain ⟨hleaves, -⟩ := readersChangeOnlyWhatTheyWrite l 260 (.known e) _ s _ (List.mem_pair.mpr (.inr rfl)) hexec
  exact ⟨_, hexec, ⟨congrArg ReadOutcome.success (oneChunk_rxlen l s _), oneChunk_rxlen l s _, oneChunk_holds l s _, hleaves⟩, rfl⟩

end OneChunk

/-! ### What an exchange takes from its environment -/

@[simp] theorem Env.afterRecv_tx_sends (e : Env) (l m : LinkId) (max : Nat) :
    ((e.afterRecv l max).link m).tx = (e.link m).tx ∧ ((e.afterRecv l max).link m).sends = (e.link m).sends := by
  by_cases h : m = l
  · subst h; simp [Env.afterRecv]
  · simp [Env.afterRecv_other e max h]

@[simp] theorem Env.afterPending_tx_sends (e : Env) (l m : LinkId) :
    ((e.afterPending l).link m).tx = (e.link m).tx ∧ ((e.afterPending l).link m).sends = (e.link m).sends := by
  by_cases h : m = l
  · subst h; simp [Env.afterPending]
  · simp [Env.afterPending_other e h]

@[simp] theorem Env.afterDiscard_tx_sends (e : Env) (l m : LinkId) :
    ((e.afterDiscard l).link m).tx = (e.link m).tx ∧ ((e.afterDiscard l).link m).sends = (e.link m).sends := by
  by_cases h : m = l
  · subst h; simp [Env.afterDiscard]
  · simp [Env.afterDiscard_other e h]

@[simp] theorem Env.afterRecv_cancels (e : Env) (l : LinkId) (max : Nat) : (e.afterRecv l max).cancels = e.cancels := by
  simp [Env.afterRecv]

@[simp] theorem Env.afterSend_cancels (e : Env) (l : LinkId) (bs : List Byte) : (e.afterSend l bs).cancels = e.cancels := by
  simp [Env.afterSend]

@[simp] theorem Env.afterDiscard_cancels (e : Env) (l : LinkId) : (e.afterDiscard l).cancels = e.cancels := by
  simp [Env.afterDiscard]

@[simp] theorem Env.afterSample_cancels (e : Env) : e.afterSample.cancels = e.cancels.tail := rfl

theorem Env.cancelNow_of_cons {e : Env} {cs : List Bool} (h : e.cancel = false) (hcs : e.cancels = false :: cs) :
    e.cancelNow = false := by
  simp [Env.cancelNow, h, hcs]

theorem Env.sendAnswer_of_cons {e : Env} {l : LinkId} {a : SendAnswer} {as : List SendAnswer}
    (h : (e.link l).sends = a :: as) : e.sendAnswer l = a := by
  rw [Env.sendAnswer, h, List.headD_cons]

/-- A frame whose send is accepted reaches the peer whole (20_memory R46). -/
theorem Env.afterSend_tx_of_ok {e : Env} {l : LinkId} {as : List SendAnswer} (frame : List Byte)
    (h : (e.link l).sends = .ok :: as) : ((e.afterSend l frame).link l).tx = (e.link l).tx ++ frame := by
  rw [Env.afterSend_link, Env.sendAnswer_of_cons h]
  rfl

/-- A discard of nothing leaves the stream as it was (20_memory R47). -/
theorem Env.afterDiscard_answers_of_zero {e : Env} {l : LinkId} (h : (e.link l).discards.head? = some 0) :
    ((e.afterDiscard l).link l).answers = (e.link l).answers := by
  rw [Env.afterDiscard_link, Env.discardAmount, List.headD_eq_head?_getD, h]
  simp [dropBytes]

/-! ### A staged frame sent -/

/-- A whole frame stands in TXB, ready to be sent. -/
structure Staged (frame : List Byte) (s : State) : Prop where
  txlen : s.txlen = frame.length
  pos : 1 ≤ frame.length
  le : frame.length ≤ 264
  holds : Holds s.txb frame

/-- SEND on an open link whose coming answer is Ok (47 R211). -/
theorem exec_send_of_ok {l : LinkId} {s : State} {frame : List Byte} {as : List SendAnswer}
    (hopen : (s.env.link l).isOpen = true) (hst : Staged frame s) (hans : (s.env.link l).sends = .ok :: as) :
    exec (.send l) s = .next ((s.setEnv (s.env.afterSend l frame)).setResult .sendOk) := by
  obtain ⟨hlen, hpos, hle, hheld⟩ := hst
  have hrecord : recordSend l frame s = (none, s.setEnv (s.env.afterSend l frame)) := by
    simp only [recordSend, Env.sendAnswer_of_cons hans]
  have hsend := sendStaged_of_held (hlen ▸ hpos) (hlen ▸ hle) hopen (hlen ▸ slice_of_holds hheld)
  rw [exec, execSend, hsend, hrecord]
  rfl

/-! ### The steps of an exchange -/

/-- A good state of direction T2R, with nothing handed over from outside, whose sequencer performs the rule of `c` next. -/
structure T2rAt (c : CState) (s : State) : Prop where
  inv : Inv s
  dir : s.dir = .t2r
  issue : s.issue = []
  cstate : s.cstate = c

section Steps

variable {c : CState} {s : State}

theorem T2rAt.isOpen (h : T2rAt c s) (hc : c ≠ .closed) (l : LinkId) : (s.env.link l).isOpen = true :=
  h.inv.isOpen (h.cstate.trans_ne hc) l

theorem T2rAt.bothOpen (h : T2rAt c s) (hc : c ≠ .closed) : BothOpen s := ⟨h.isOpen hc .M, h.isOpen hc .S⟩

/-- What CYC.T2R answers is the step's answer, and it is a good state again. -/
theorem T2rAt.step {c' : CState} {t : State} (h : T2rAt c s) (hc : c ≠ .closed) (ht : exec .cycT2r s = .next t)
    (hd : t.dir = s.dir) (hi : t.issue = s.issue) (hc' : t.cstate = c') : Machine.step s = .next t ∧ T2rAt c' t := by
  have hstep : Machine.step s = .next t := by
    rw [step_cycleOf h.issue (h.cstate.trans_ne hc), h.dir]
    exact ht
  exact ⟨hstep, step_inv h.inv hstep, hd.trans h.dir, hi.trans h.issue, hc'⟩

/-- State Idle (45 R171). -/
theorem t2r_idle_step (h : T2rAt .idle s) :
    ∃ t, (step s = .next t ∧ T2rAt .awaitMasterRequest t) ∧ t.env = s.env :=
  ⟨_, h.step (by decide) ((idleStepBeginsTheCycle s h.cstate).1 h.dir) rfl rfl rfl, rfl⟩

/-- State AwaitMasterRequest, the request in one chunk (45 R172, R173). -/
theorem t2r_request_step {t1 t0 p1 p0 l1 l0 : Byte} {body : List Byte} {as : List RecvAnswer}
    (h : T2rAt .awaitMasterRequest s) (hcan : s.env.cancelNow = false)
    (hfield : l1.toNat * 256 + l0.toNat = body.length) (h1 : 1 ≤ body.length) (h2 : body.length ≤ 254)
    (hans : s.env.master.answers = .data t1 ([t0, p1, p0, l1, l0] ++ body) :: as) :
    ∃ t, (step s = .next t ∧ T2rAt .forwardToSlave t) ∧ t.env = s.env.afterSample.afterRecv .M 260 ∧
      t.savedTid = t1 ++ t0 ∧ t.savedPid = p1 ++ p0 ∧ t.explen = Spec.requestExpectation body ∧
      Staged (rtuFrame body) t := by
  obtain ⟨u, hread, hu, henv⟩ := exec_rdmbap_of_oneChunk (h.isOpen (by decide) .M) hcan hans
    (by simp only [List.length_cons, List.length_append, List.length_nil]; omega) rfl hfield h1
  obtain ⟨hdir, -, -, -, -, -, -, -, -, hissue, -⟩ := hu.leaves
  obtain ⟨buf, hconv, hheld, -⟩ := t2rRequestIsConverted u t1 t0 p1 p0 l1 l0 body h1 h2 (Nat.le_of_eq hu.rxlen.symm) hu.holds
  obtain ⟨hsuccess, -, -⟩ := t2rAwaitMasterRequestStep s u h.dir h.cstate (h.bothOpen (by decide)) hread
  have hframe := rtuFrame_length body
  exact ⟨_, h.step (by decide) (hsuccess _ _ hu.outcome hconv) hdir hissue rfl, henv, rfl, rfl, rfl,
    ⟨hframe.symm, by omega, by omega, hheld⟩⟩

/-- State ForwardToSlave, the send accepted (45 R174). -/
theorem t2r_forward_step {frame : List Byte} {as : List SendAnswer} (h : T2rAt .forwardToSlave s) (hst : Staged frame s)
    (hans : s.env.slave.sends = .ok :: as) :
    ∃ t, (step s = .next t ∧ T2rAt .awaitSlaveResponse t) ∧ t.env = (s.env.afterDiscard .S).afterSend .S frame ∧
      t.savedTid = s.savedTid ∧ t.savedPid = s.savedPid ∧ t.explen = s.explen := by
  have hflush : exec .flush s = .next ((s.setEnv (s.env.afterDiscard .S)).setResult .none) :=
    completed_of_next (flushSlave_of_open (h.isOpen (by decide) .S))
  have hsend := exec_send_of_ok (l := .S) (s := (s.setEnv (s.env.afterDiscard .S)).setResult .none) (h.isOpen (by decide) .S)
    ⟨hst.txlen, hst.pos, hst.le, hst.holds⟩ hans
  obtain ⟨hok, -⟩ := t2rForwardToSlaveStep s _ _ h.dir h.cstate (h.bothOpen (by decide)) hflush hsend
  exact ⟨_, h.step (by decide) (hok rfl) (by simp) (by simp) rfl, by simp⟩

/-- State AwaitSlaveResponse, the response in one chunk of the expected length (45 R175, R176). -/
theorem t2r_response_step {b : Byte} {bs body : List Byte} {e : Word18} {as : List RecvAnswer}
    (h : T2rAt .awaitSlaveResponse s) (hcan : s.env.cancelNow = false) (hexp : s.explen = .known e)
    (hframe : b :: bs = rtuFrame body) (hlen : body.length = e.toNat + 1) (he : e.toNat + 3 ≤ 260)
    (hans : s.env.slave.answers = .data b bs :: as) :
    ∃ t, (step s = .next t ∧ T2rAt .forwardToMaster t) ∧ t.env = (s.env.afterSample.afterRecv .S 260).afterPending .S ∧
      Staged ([hiByte s.savedTid, loByte s.savedTid, hiByte s.savedPid, loByte s.savedPid,
        BitVec.ofNat 8 (body.length / 256), BitVec.ofNat 8 body.length] ++ body) t := by
  have hrx : (b :: bs).length = body.length + 2 := by rw [hframe, rtuFrame_length]
  obtain ⟨u, hread, hu, henv⟩ :=
    exec_rdrtu_of_oneChunk (h.isOpen (by decide) .S) hcan hans (by omega) hframe hlen
  obtain ⟨hdir, -, -, -, htid, hpid, -, -, -, hissue, -⟩ := hu.leaves
  obtain ⟨-, hconverted⟩ := t2rResponseIsConverted
  obtain ⟨buf, hconv, hheld, -⟩ := hconverted u body _ _ (by omega) (by omega) (Nat.le_of_eq (hrx.symm.trans hu.rxlen.symm))
    (hframe ▸ hu.holds)
  obtain ⟨hsuccess, -, -⟩ :=
    t2rAwaitSlaveResponseStep s u h.dir h.cstate (h.bothOpen (by decide)) (hexp ▸ hread)
  have hout : u.outcome = .success (body.length + 2) := hu.outcome.trans (congrArg _ hrx)
  rw [htid, hpid] at hheld
  exact ⟨_, h.step (by decide) (hsuccess _ _ hout hconv) hdir hissue rfl, henv,
    ⟨rfl, by simp, by simp only [List.length_append, List.length_cons, List.length_nil]; omega, hheld⟩⟩

/-- State ForwardToMaster, the send accepted (45 R177). -/
theorem t2r_reply_step {frame : List Byte} {as : List SendAnswer} (h : T2rAt .forwardToMaster s) (hst : Staged frame s)
    (hans : s.env.master.sends = .ok :: as) :
    ∃ t, (step s = .next t ∧ T2rAt .idle t) ∧ t.env = s.env.afterSend .M frame := by
  have hsend := exec_send_of_ok (h.isOpen (by decide) .M) hst hans
  obtain ⟨hok, -⟩ := forwardToMasterStep s _ .cycT2r (.inl ⟨h.dir, rfl⟩) h.cstate (h.bothOpen (by decide)) hsend
  exact ⟨_, h.step (by decide) (hok rfl) rfl rfl rfl, rfl⟩

end Steps

/-- Settles O59: the five state rules in a row. RDMBAP touches neither the slave link nor what the master link has been sent;
FLUSH discards nothing; `cancel` is sampled once in each of the two reads. -/
theorem t2rExchangeForwardsRequestAndResponse : Obligations.T2rExchangeForwardsRequestAndResponse := by
  intro s t1 t0 p1 p0 l1 l0 b0 r0 body resp e mrest srest cs ms ss hi hd hc hissue hcan hcans hfield hlen hmans hexp hrlen he
    hsans hdisc hssends hmsends
  obtain ⟨s1, ⟨h1, hat1⟩, henv1⟩ := t2r_idle_step ⟨hi, hd, hissue, hc⟩
  rw [← henv1] at hcan hcans hmans hsans hdisc hssends hmsends ⊢
  obtain ⟨s2, ⟨h2, hat2⟩, henv2, htid, hpid, hexplen, hst⟩ :=
    t2r_request_step hat1 (Env.cancelNow_of_cons hcan hcans) hfield (Nat.succ_pos _) hlen hmans
  have hslave2 : s2.env.link .S = s1.env.link .S := by
    rw [henv2, Env.afterRecv_other _ _ (by decide), Env.afterSample_link]
  rw [show s1.env.slave = s2.env.link .S from hslave2.symm] at hsans hdisc hssends ⊢
  obtain ⟨s3, ⟨h3, hat3⟩, henv3, htid3, hpid3, hexplen3⟩ := t2r_forward_step hat2 hst hssends
  have hsans3 : (s3.env.link .S).answers = (s2.env.link .S).answers := by
    rw [henv3, Env.afterSend_link, Env.afterDiscard_answers_of_zero hdisc]
  have hcan3 : s3.env.cancelNow = false := by
    refine Env.cancelNow_of_cons (cs := cs) ?_ ?_
    · simp [henv3, henv2, Env.cancelNow_of_cons hcan hcans]
    · simp [henv3, henv2, hcans]
  obtain ⟨s4, ⟨h4, hat4⟩, henv4, hst4⟩ := t2r_response_step (body := r0 :: resp) hat3 hcan3
    (hexplen3.trans (hexplen.trans hexp)) rfl hrlen he (hsans3.trans hsans)
  simp only [htid3, htid, hpid3, hpid, hiByte_append, loByte_append] at hst4
  obtain ⟨hmtx4, hmsends4⟩ :
      (s4.env.link .M).tx = (s1.env.link .M).tx ∧ (s4.env.link .M).sends = (s1.env.link .M).sends := by
    simp [henv4, henv3, henv2, Env.afterSend_other]
  have hmsends4 := hmsends4.trans hmsends
  obtain ⟨s5, ⟨h5, hat5⟩, henv5⟩ := t2r_reply_step hat4 hst4 hmsends4
  have hslave : (s5.env.link .S).tx = (s2.env.link .S).tx ++ rtuFrame (b0 :: body) := calc
    (s5.env.link .S).tx = (s3.env.link .S).tx := by simp [henv5, henv4, Env.afterSend_other]
    _ = (s2.env.link .S).tx ++ rtuFrame (b0 :: body) := by
      rw [henv3, Env.afterSend_tx_of_ok (as := ss) _ (by simpa using hssends), (Env.afterDiscard_tx_sends _ _ _).1]
  have hmaster := Env.afterSend_tx_of_ok ([t1, t0, p1, p0, BitVec.ofNat 8 ((r0 :: resp).length / 256),
    BitVec.ofNat 8 (r0 :: resp).length] ++ (r0 :: resp)) hmsends4
  rw [← henv5, hmtx4] at hmaster
  refine ⟨s5, ⟨s1, h1, s2, h2, s3, h3, s4, h4, s5, h5, rfl⟩, hat5.cstate, ?_, ?_⟩ <;> rw [List.append_assoc]
  · exact hslave
  · exact hmaster

end Sys2Proof.Machine
end

section
/-! SUPPORT. O45 and O46: the converter operations of direction R2T on a frame held in RXB (46 R192, R199, R200). -/

namespace Sys2Proof.Machine

open Sys2Proof.Spec

/-! ### The header -/

/-- The six header bytes of a converted request: the protocol id is 0 (46 R192). -/
theorem mbapHeader_pid_zero (tid : Word16) (n : Nat) :
    mbapHeader tid 0x0000#16 n =
      [hiByte tid, loByte tid, 0x00#8, 0x00#8, BitVec.ofNat 8 (n / 256), BitVec.ofNat 8 n] :=
  mbapHeader_eq tid 0x0000#16 n

/-! ### The two conversions -/

/-- R2T.REQ of a held frame (46 R192). -/
theorem r2tReq_of_holds {s : State} {body : List Byte} (h1 : 1 ≤ body.length) (h2 : body.length ≤ 258)
    (hlen : body.length ≤ s.rxlen) (h : Holds s.rxb body) :
    r2tReq (body.length + 2) s =
      .next ((s.setSentTid s.txid).stageFrame (mbapHeader s.txid 0x0000#16 body.length ++ body)) := by
  rw [r2tReq, rtuLength_of_range _ (by omega), Nat.add_sub_cancel, rxRead_of_holds hlen h, andThen_next,
    stage_eq_stageFrame _ (by rw [List.length_append, mbapHeader_length]; omega)]

/-- The id check reads the first two bytes of the frame, high byte first (46 R200). -/
theorem checkTid_cons (t1 t0 : Byte) (rest : List Byte) (sent : Word16) (s : State) :
    checkTid (t1 :: t0 :: rest) sent s = if t1 ++ t0 = sent then s else s.logEvent .wTid := by
  rw [checkTid, show be16At 0 (t1 :: t0 :: rest) = t1 ++ t0 from be16_pair t1 t0]

/-- R2T.RSP of a held frame (46 R199, R200). -/
theorem r2tRsp_of_holds {s : State} {t1 t0 p1 p0 l1 l0 : Byte} {body : List Byte} (h1 : 1 ≤ body.length)
    (h2 : body.length ≤ 254) (hlen : body.length + 6 ≤ s.rxlen) (h : Holds s.rxb ([t1, t0, p1, p0, l1, l0] ++ body)) :
    r2tRsp (body.length + 6) s =
      .next (((if t1 ++ t0 = s.sentTid then s else s.logEvent .wTid).setCrc (crc16 body)).stageFrame (rtuFrame body)) := by
  have hread : rxRead 0 (body.length + 6) s = .next ([t1, t0, p1, p0, l1, l0] ++ body) :=
    rxRead_of_holds (bs := [t1, t0, p1, p0, l1, l0] ++ body) hlen h
  have hdrop : ([t1, t0, p1, p0, l1, l0] ++ body).drop 6 = body := rfl
  rw [r2tRsp, mbapLength_of_range _ (by omega), hread, andThen_next, hdrop,
    stage_eq_stageFrame _ (by rw [rtuFrame_length]; omega), List.cons_append, List.cons_append, checkTid_cons]

/-! ### The statements about the conversions -/

/-- Settles O45: the conversion of the held frame, which reads nothing of its CRC bytes. -/
theorem r2tRequestIsConverted : Obligations.R2tRequestIsConverted := by
  refine ⟨fun s => completed_of_refused (x := r2tReq 1 s) (rtuLength_of_short _ (by omega)), ?_⟩
  intro s body lo hi h1 h2 hlen h
  have hframe : (mbapHeader s.txid 0x0000#16 body.length ++ body).length = body.length + 6 := by
    rw [List.length_append, mbapHeader_length, Nat.add_comm]
  rw [← mbapHeader_pid_zero]
  refine ⟨_, ?_, holds_putAll _ s.txb, fun a ha => ?_⟩
  · rw [exec_r2tReq, completed_of_next (r2tReq_of_holds h1 h2 (by omega) (holds_of_append h)), ← hframe]
    rfl
  · exact stageFrame_get_past s _ (hframe.trans_le ha)

/-- Settles O46: the conversion of the held frame, whose id check logs or leaves the state as it is. -/
theorem r2tResponseIsConverted : Obligations.R2tResponseIsConverted := by
  intro s t1 t0 p1 p0 l1 l0 body h1 h2 hlen h
  refine ⟨_, ?_, holds_putAll (rtuFrame body) s.txb, fun a ha => ?_⟩
  · rw [exec_r2tRsp, completed_of_next (r2tRsp_of_holds h1 h2 hlen h), ← rtuFrame_length]
    split <;> rfl
  · exact stageFrame_get_past s _ ((rtuFrame_length body).trans_le ha)

end Sys2Proof.Machine
end

section
/-! SUPPORT. O54 to O56: the state rules of the R2T sequencer against the operations they issue (46 R193, R194, R197). -/

namespace Sys2Proof.Machine

open Sys2Proof.Spec

/-! ### What was handed back is not read -/

theorem r2tReq_ignoresResult (n : Nat) : IgnoresResult (r2tReq n) := fun s r =>
  ite_mapNext rfl (ite_mapNext (andThen_mapNext_read fun _ => stage_ignoresResult _ (s.setSentTid s.txid) r) rfl)

theorem checkTid_setResult (frame : List Byte) (sent : Word16) (s : State) (r : OpResult) :
    checkTid frame sent (s.setResult r) = (checkTid frame sent s).setResult r := by
  unfold checkTid
  split <;> rfl

theorem r2tRsp_ignoresResult (m : Nat) : IgnoresResult (r2tRsp m) := fun s r =>
  ite_mapNext (andThen_mapNext_read fun frame => by
    rw [checkTid_setResult]
    exact stage_ignoresResult _ ((checkTid frame s.sentTid s).setCrc _) r) rfl

/-! ### What the two operations leave for the rules -/

/-- Without a known length the RTU pseudocode has no way to end in CrcMismatch or TooMuchData (43 R145, R146). -/
theorem rtuRun_unknown_outcome {l : LinkId} {cap : Nat} {s t : State} {o : ReadOutcome} (h : RtuRun l cap .unknown s o t) :
    o ≠ .fatal .crcMismatch ∧ o ≠ .fatal .tooMuchData := by
  induction h with
  | mismatch _ _ _ _ _ _ he => cases he
  | tooMuchData _ _ _ _ _ he => cases he
  | readOnKnown _ _ _ _ _ _ _ he => cases he
  | readOnUnknown _ _ _ _ _ _ _ ih => exact ih
  | _ => exact ⟨nofun, nofun⟩

theorem exec_rdrtu_unknown_outcome {l : LinkId} {cap : Nat} {s u : State} (h : exec (.rdrtu l cap .unknown) s = .next u) :
    u.outcome ≠ .fatal .crcMismatch ∧ u.outcome ≠ .fatal .tooMuchData := by
  obtain rfl := execReader_eq_next h
  exact rtuRun_unknown_outcome (readLoop_rtuRun l cap .unknown s)

/-- SEND leaves TXID alone, and the environment as its LinkSend does (47 R211). -/
theorem sendStaged_leaves {l : LinkId} {s : State} {p : Option Category × State} (h : sendStaged l s = .next p) :
    p.2.txid = s.txid ∧ ∃ frame, p.2.env = s.env.afterSend l frame := by
  obtain ⟨-, -, frame, -, rfl⟩ := sendStaged_eq_next h
  rcases recordSend_cases l frame s with ⟨-, h⟩ | ⟨k, r, -, h⟩ <;> rw [h] <;> exact ⟨rfl, frame, rfl⟩

/-- TXID's increment as R196 writes it, wrapping at 16 bits. -/
theorem ofNat_toNat_succ (v : Word16) : BitVec.ofNat 16 (v.toNat + 1) = v + 1#16 := by
  rw [BitVec.ofNat_add, BitVec.ofNat_toNat, BitVec.setWidth_eq]

/-! ### The statements about the state rules -/

/-- Settles O54: a reading state, with RDRTU and R2T.REQ; the excluded kinds need a known length. -/
theorem r2tAwaitMasterRequestStep : Obligations.R2tAwaitMasterRequestStep := by
  intro s u hd hc hopen hu
  obtain ⟨hcrc, hmuch⟩ := exec_rdrtu_unknown_outcome hu
  have hrule : exec .cycR2t s = completed (r2tAwaitMaster s) := by rw [exec_cycR2t hd, stepR2t, hc]
  obtain ⟨hsuccess, htimeout, hfatal⟩ := reading_rule hopen (fun _ => rdRtu_updates) r2tReq_ignoresResult hrule hu
  exact ⟨hsuccess, htimeout, fun o ho =>
    ⟨fun h => hcrc (ho.trans (congrArg _ h)), fun h => hmuch (ho.trans (congrArg _ h)), hfatal o ho⟩⟩

/-- Settles O55: SEND keeps TXID, so the id the rule increments is the old one. -/
theorem r2tForwardToSlaveStep : Obligations.R2tForwardToSlaveStep := by
  intro s u hd hc hopen hu
  obtain ⟨⟨a, t⟩, hp, hu⟩ := andThen_eq_next hu
  cases hu
  have hleft : BothOpen t := (sendStaged_updates hp).bothOpen hopen
  obtain ⟨htxid, -⟩ := sendStaged_leaves hp
  have hrule : exec .cycR2t s = completed (r2tForwardSlave s) := by rw [exec_cycR2t hd, stepR2t, hc]
  rw [r2tForwardSlave, hp, andThen_next] at hrule
  cases a with
  | none =>
    refine ⟨fun _ => ?_, fun k hk => by contradiction⟩
    rw [hrule, afterSend_ok, htxid, ofNat_toNat_succ]
    rfl
  | some a =>
    rw [afterSend_error, teardown_of_bothOpen _ hleft] at hrule
    exact ⟨fun hk => by contradiction, fun k _ => hrule⟩

/-- Settles O56: a reading state, with RDMBAP and R2T.RSP. -/
theorem r2tAwaitSlaveResponseStep : Obligations.R2tAwaitSlaveResponseStep := by
  intro s u hd hc hopen hu
  refine reading_rule hopen (fun _ => rdMbap_updates) r2tRsp_ignoresResult ?_ hu
  rw [exec_cycR2t hd, stepR2t, hc]
  rfl

end Sys2Proof.Machine
end

section
/-! SUPPORT. O16 and O17: what of TXID and of the discards on a link an operation leaves alone. The control moves of the sequencer
(CSTATE, TEARDOWN, handing a result back) touch neither, so a state rule touches one only where an operation it issues does. -/

namespace Sys2Proof.Machine

open Sys2Proof.Spec

/-! ### A part of the state the control moves leave alone -/

/-- How often `l` was asked to discard (00_scope R9). -/
def discardsOn (l : LinkId) (s : State) : Nat := (s.env.link l).calls.count .discarded

/-- A part `f` of the state that neither a move of CSTATE, nor TEARDOWN, nor what is handed back touches. -/
structure ControlFree {β : Type} (f : State → β) : Prop where
  setCState : ∀ s c, f (s.setCState c) = f s
  setResult : ∀ s r, f (s.setResult r) = f s
  tornDown : ∀ s, f (tornDown s) = f s

theorem txid_controlFree : ControlFree State.txid := ⟨fun _ _ => rfl, fun _ _ => rfl, fun _ => rfl⟩

theorem discardsOn_controlFree (l : LinkId) : ControlFree (discardsOn l) where
  setCState := fun _ _ => rfl
  setResult := fun _ _ => rfl
  tornDown := fun s => by cases l <;> simp [discardsOn, tornDown, closedLink, Env.link]

section Rules

variable {α β : Type} {f : State → β} {s t : State}

/-- An operation that ends by handing something back. -/
theorem ControlFree.of_andThen {x : Host.Outcome α Fault Refusal} {g : α → State} {r : α → OpResult} (hf : ControlFree f)
    (hx : ∀ a, x = .next a → f (g a) = f s) (h : andThen x (fun a => .next ((g a).setResult (r a))) = .next t) :
    f t = f s := by
  obtain ⟨a, ha, h⟩ := andThen_eq_next h
  cases h
  exact (hf.setResult _ _).trans (hx a ha)

/-- A reading state touches what its reader or its conversion touches. -/
theorem ControlFree.of_reading {x : Host.Outcome (ReadOutcome × State) Fault Refusal} {k : Nat → State → Out} {c : CState}
    (hf : ControlFree f) (hx : ∀ p, x = .next p → f p.2 = f s) (hk : ∀ n u v, k n u = .next v → f v = f u)
    (h : andThen x (afterRead fun n u => andThen (k n u) fun v => .next (v.setCState c)) = .next t) : f t = f s := by
  obtain ⟨⟨o, u⟩, hp, h⟩ := andThen_eq_next h
  refine Eq.trans ?_ (hx _ hp)
  cases o with
  | success n =>
    obtain ⟨v, hv, h⟩ := andThen_eq_next h
    cases h
    exact (hf.setCState v c).trans (hk n u v hv)
  | timeout =>
    cases h
    rfl
  | fatal o =>
    rw [teardown_tornDown (o := o) h]
    exact hf.tornDown u

/-- A forwarding state goes on with the state its SEND leaves when the link answered Ok, and tears it down otherwise. -/
theorem forwarding_eq_next {l : LinkId} {k : State → State}
    (h : andThen (sendStaged l s) (afterSend fun u => .next (k u)) = .next t) :
    ∃ p, sendStaged l s = .next p ∧ ((s.env.sendAnswer l = .ok ∧ t = k p.2) ∨ t = tornDown p.2) := by
  obtain ⟨p, hp, h⟩ := andThen_eq_next h
  refine ⟨p, hp, ?_⟩
  obtain ⟨-, -, frame, -, rfl⟩ := sendStaged_eq_next hp
  rcases recordSend_cases l frame s with ⟨hans, hrec⟩ | ⟨a, r, -, hrec⟩ <;> rw [hrec] at h ⊢
  · cases h
    exact .inl ⟨hans, rfl⟩
  · exact .inr (teardown_tornDown (o := .rawError a) h)

/-- A forwarding state touches what its SEND or its next registers touch. -/
theorem ControlFree.of_forwarding {l : LinkId} {k : State → State} {c : CState} (hf : ControlFree f)
    (hx : ∀ p, sendStaged l s = .next p → f p.2 = f s) (hk : ∀ u, f (k u) = f u)
    (h : andThen (sendStaged l s) (afterSend fun u => .next ((k u).setCState c)) = .next t) : f t = f s := by
  obtain ⟨p, hp, ⟨-, rfl⟩ | rfl⟩ := forwarding_eq_next (k := fun u => (k u).setCState c) h
  · exact (hf.setCState _ c).trans ((hk p.2).trans (hx p hp))
  · exact (hf.tornDown p.2).trans (hx p hp)

end Rules

/-! ### What the operations leave alone -/

/-- A reader leaves TXID alone and discards on neither link. -/
theorem readFrame_leaves {l : LinkId} {cap : Nat} {verdict : State → Option ReadOutcome × State} {s : State}
    {p : ReadOutcome × State} (hv : ∀ u, ReaderKeeps l u (verdict u).2) (h : readFrame l cap verdict s = .next p) :
    p.2.txid = s.txid ∧ ∀ m, discardsOn m p.2 = discardsOn m s := by
  obtain ⟨-, -, rfl⟩ := readFrame_eq_next h
  have hk := readLoop_keeps (cap := cap) hv cap (s.setRxlen 0)
  refine ⟨hk.txid, fun m => congrArg (List.count _) ?_⟩
  by_cases hm : m = l
  · exact hm ▸ hk.calls
  · exact congrArg Link.calls (hk.otherLink m hm)

theorem rdMbap_leaves {l : LinkId} {cap : Nat} {s : State} {p : ReadOutcome × State} (h : rdMbap l cap s = .next p) :
    p.2.txid = s.txid ∧ ∀ m, discardsOn m p.2 = discardsOn m s :=
  readFrame_leaves (.mbapVerdict l) h

theorem rdRtu_leaves {l : LinkId} {cap : Nat} {exp : Expectation} {s : State} {p : ReadOutcome × State}
    (h : rdRtu l cap exp s = .next p) : p.2.txid = s.txid ∧ ∀ m, discardsOn m p.2 = discardsOn m s :=
  readFrame_leaves (.rtuVerdict l exp) h

/-- A send is no discard: its one call, on its own link, is a send. -/
theorem sendStaged_discardsOn {l m : LinkId} {s : State} {p : Option Category × State} (h : sendStaged l s = .next p) :
    discardsOn m p.2 = discardsOn m s := by
  obtain ⟨-, frame, henv⟩ := sendStaged_leaves h
  rw [discardsOn, henv]
  by_cases hm : m = l
  · subst hm
    simp [Env.afterSend_link, discardsOn]
  · rw [Env.afterSend_other _ _ hm, discardsOn]

theorem t2rReq_txid {n : Nat} {s t : State} (h : t2rReq n s = .next t) : t.txid = s.txid := by
  obtain ⟨-, -, frame, -, rfl⟩ := t2rReq_eq_next h
  rfl

theorem t2rRsp_txid {m : Nat} {s t : State} (h : t2rRsp m s = .next t) : t.txid = s.txid := by
  obtain ⟨-, -, body, -, rfl⟩ := t2rRsp_eq_next h
  rfl

/-- R2T.REQ reads TXID and does not write it (46 R192). -/
theorem r2tReq_leaves {n : Nat} {s t : State} (h : r2tReq n s = .next t) : t.txid = s.txid ∧ t.env = s.env := by
  obtain ⟨-, -, body, -, rfl⟩ := r2tReq_eq_next h
  exact ⟨rfl, rfl⟩

theorem checkTid_leaves (frame : List Byte) (sent : Word16) (s : State) :
    (checkTid frame sent s).txid = s.txid ∧ (checkTid frame sent s).env = s.env := by
  unfold checkTid
  split <;> exact ⟨rfl, rfl⟩

theorem r2tRsp_leaves {m : Nat} {s t : State} (h : r2tRsp m s = .next t) : t.txid = s.txid ∧ t.env = s.env := by
  obtain ⟨-, -, frame, -, rfl⟩ := r2tRsp_eq_next h
  exact checkTid_leaves frame s.sentTid s

theorem discardsOn_of_env {m : LinkId} {s t : State} (h : t.env = s.env) : discardsOn m t = discardsOn m s := by
  rw [discardsOn, discardsOn, h]

theorem flushSlave_txid {s t : State} (h : flushSlave s = .next t) : t.txid = s.txid := by
  obtain ⟨-, rfl⟩ := flushSlave_eq_next h
  rfl

/-! ### The state rules -/

/-- Direction T2R never writes TXID (10_state R15). -/
theorem stepT2r_txid {s t : State} (h : stepT2r s = .next t) : t.txid = s.txid := by
  cases hc : s.cstate <;> simp only [stepT2r, hc, reduceCtorEq] at h
  case idle =>
    cases h
    rfl
  case awaitMasterRequest =>
    exact txid_controlFree.of_reading (fun _ hp => (rdMbap_leaves hp).1) (fun _ _ _ => t2rReq_txid) h
  case forwardToSlave =>
    obtain ⟨u, hu, h⟩ := andThen_eq_next h
    exact (txid_controlFree.of_forwarding (fun _ hp => (sendStaged_leaves hp).1) (fun _ => rfl) h).trans (flushSlave_txid hu)
  case awaitSlaveResponse =>
    exact txid_controlFree.of_reading (fun _ hp => (rdRtu_leaves hp).1) (fun _ _ _ => t2rRsp_txid) h
  case forwardToMaster =>
    exact txid_controlFree.of_forwarding (fun _ hp => (sendStaged_leaves hp).1) (fun _ => rfl) h

/-- In direction R2T one rule writes TXID: ForwardToSlave, when its send is accepted (46 R196). -/
theorem stepR2t_txid {s t : State} (h : stepR2t s = .next t) :
    t.txid = s.txid ∨ (s.cstate = .forwardToSlave ∧ t.cstate = .awaitSlaveResponse ∧ s.env.sendAnswer .S = .ok ∧
      t.txid = s.txid + 1#16) := by
  cases hc : s.cstate <;> simp only [stepR2t, hc, reduceCtorEq] at h
  case idle =>
    cases h
    exact .inl rfl
  case awaitMasterRequest =>
    exact .inl (txid_controlFree.of_reading (fun _ hp => (rdRtu_leaves hp).1) (fun _ _ _ hv => (r2tReq_leaves hv).1) h)
  case forwardToSlave =>
    obtain ⟨p, hp, h⟩ := forwarding_eq_next (k := fun u => (u.setTxid (u.txid + 1#16)).setCState .awaitSlaveResponse) h
    obtain ⟨hid, -⟩ := sendStaged_leaves hp
    rcases h with ⟨hans, rfl⟩ | rfl
    · exact .inr ⟨rfl, rfl, hans, congrArg (· + 1#16) hid⟩
    · exact .inl hid
  case awaitSlaveResponse =>
    exact .inl (txid_controlFree.of_reading (fun _ hp => (rdMbap_leaves hp).1) (fun _ _ _ hv => (r2tRsp_leaves hv).1) h)
  case forwardToMaster =>
    exact .inl (txid_controlFree.of_forwarding (fun _ hp => (sendStaged_leaves hp).1) (fun _ => rfl) h)

/-- No rule of direction R2T issues FLUSH (46 R194, 91 N9). -/
theorem stepR2t_discardsOn {s t : State} (l : LinkId) (h : stepR2t s = .next t) : discardsOn l t = discardsOn l s := by
  have hf := discardsOn_controlFree l
  cases hc : s.cstate <;> simp only [stepR2t, hc, reduceCtorEq] at h
  case idle =>
    cases h
    rfl
  case awaitMasterRequest =>
    exact hf.of_reading (fun _ hp => (rdRtu_leaves hp).2 l) (fun _ _ _ hv => discardsOn_of_env (r2tReq_leaves hv).2) h
  case forwardToSlave =>
    exact hf.of_forwarding (k := fun u => u.setTxid (u.txid + 1#16))
      (fun _ => sendStaged_discardsOn) (fun _ => rfl) h
  case awaitSlaveResponse =>
    exact hf.of_reading (fun _ hp => (rdMbap_leaves hp).2 l) (fun _ _ _ hv => discardsOn_of_env (r2tRsp_leaves hv).2) h
  case forwardToMaster => exact hf.of_forwarding (fun _ => sendStaged_discardsOn) (fun _ => rfl) h

/-! ### The instructions -/

/-- A meaning made under a condition. -/
theorem of_ite_eq_next {t : State} {c P : Prop} [Decidable c] {x y : Out} (hx : x = .next t → P) (hy : y = .next t → P)
    (h : (if c then x else y) = .next t) : P := by
  split at h
  · exact hx h
  · exact hy h

/-- A meaning that only hands something back. -/
theorem txid_of_result {s t : State} {r : OpResult} (h : (.next (s.setResult r) : Out) = .next t) : t.txid = s.txid := by
  cases h
  rfl

/-- No operation but CYC.R2T writes TXID. -/
theorem exec_txid {i : Instr} {s t : State} (hi : i ≠ .cycR2t) (h : exec i s = .next t) : t.txid = s.txid := by
  have hf := txid_controlFree
  have refused : ∀ {r : Refusal}, (.refused r : Out) = .next t → t.txid = s.txid := nofun
  cases i with
  | crc16 bytes =>
    cases h
    rfl
  | be16 bytes off => exact of_ite_eq_next txid_of_result refused h
  | be32 bytes off => exact of_ite_eq_next txid_of_result refused h
  | be64 bytes off => exact of_ite_eq_next txid_of_result refused h
  | rdmbap l cap => exact hf.of_andThen (fun _ hp => (rdMbap_leaves hp).1) h
  | rdrtu l cap exp => exact hf.of_andThen (fun _ hp => (rdRtu_leaves hp).1) h
  | est fc q => exact txid_of_result h
  | t2rReq n => exact hf.of_andThen (fun _ => t2rReq_txid) h
  | t2rRsp m => exact hf.of_andThen (fun _ => t2rRsp_txid) h
  | r2tReq n => exact hf.of_andThen (fun _ hv => (r2tReq_leaves hv).1) h
  | r2tRsp m => exact hf.of_andThen (fun _ hv => (r2tRsp_leaves hv).1) h
  | flush => exact hf.of_andThen (fun _ => flushSlave_txid) h
  | send l => exact hf.of_andThen (fun _ hp => (sendStaged_leaves hp).1) h
  | teardown o => exact hf.of_andThen (fun _ hv => (congrArg State.txid (teardown_tornDown hv)).trans (hf.tornDown s)) h
  | cycT2r => exact of_ite_eq_next (hf.of_andThen fun _ => stepT2r_txid) refused h
  | cycR2t => contradiction
  | estFc01 q => exact txid_of_result h
  | estFc02 q => exact txid_of_result h
  | estFc03 q => exact txid_of_result h
  | estFc04 q => exact txid_of_result h
  | estFc05 q => exact txid_of_result h
  | estFc06 q => exact txid_of_result h
  | estFc0F q => exact txid_of_result h
  | estFc10 q => exact txid_of_result h
  | estOther fc q => exact of_ite_eq_next refused txid_of_result h

/-! ### The statements -/

/-- Settles O16: no other operation writes TXID, and of CYC.R2T only the rule whose send was accepted does. -/
theorem transactionIdAdvancesOnlyAfterASentRequest : Obligations.TransactionIdAdvancesOnlyAfterASentRequest := by
  intro i s t h
  by_cases hi : i = .cycR2t
  · subst hi
    by_cases hd : s.dir = .r2t
    · rw [exec_cycR2t hd] at h
      obtain ⟨u, hu, rfl⟩ := completed_eq_next h
      rcases stepR2t_txid hu with hkept | ⟨hc, hc', hans, hid⟩
      · exact .inl hkept
      · refine .inr ⟨rfl, hd, hc, hc', hans, ?_⟩
        rw [State.setResult_txid, hid, BitVec.toNat_add]
        rfl
    · cases (if_neg hd : exec .cycR2t s = _).symm.trans h
  · exact .inl (exec_txid hi h)

/-- Settles O17: a step of the sequencer is one state rule, and no R2T rule flushes. -/
theorem reverseDirectionNeverDiscards : Obligations.ReverseDirectionNeverDiscards := by
  intro s t hissue hd h l
  obtain ⟨hc, -⟩ := step_eq_next h
  rw [step_cycleOf hissue hc, hd, cycleOf, exec_cycR2t hd] at h
  obtain ⟨u, hu, rfl⟩ := completed_eq_next h
  exact ((discardsOn_controlFree l).setResult u .none).trans (stepR2t_discardsOn l hu)

end Sys2Proof.Machine
end

section
/-! SUPPORT. O60: an R2T exchange of one-chunk frames (46 R190, R201, R203), the mirror of O59: each step is the statement about
its state rule used with the operations under the answers their links give, and the exchange is the five steps in a row. -/

namespace Sys2Proof.Machine

open Sys2Proof.Spec

/-! ### The two reads -/

/-- The quiet end of a frame of at least three bytes whose CRC is good (43 R146). -/
theorem rtuVerdict_of_quiet {l : LinkId} {s : State} (hquiet : s.env.pendingAnswer l = false) (hlen : 3 ≤ s.rxlen)
    (hcrc : crcMatches s.rxFrame = true) : rtuVerdict l .unknown s =
      (some (.success s.rxlen), (s.setEnv (s.env.afterPending l)).setCrc (crc16 (crcCovered s.rxFrame))) := by
  rw [rtuVerdict, hquiet, rtuTests_unknown (by rw [State.setEnv_rxlen]; omega), unknownVerdict, if_neg Bool.false_ne_true,
    if_neg (by rw [State.setEnv_rxlen]; omega)]
  exact if_pos hcrc

@[simp] theorem Env.afterPending_cancels (e : Env) (l : LinkId) : (e.afterPending l).cancels = e.cancels := by
  simp [Env.afterPending]

theorem Env.pendingAnswer_of_cons {e : Env} {l : LinkId} {p : Bool} {ps : List Bool} (h : (e.link l).pendings = p :: ps) :
    e.pendingAnswer l = p := by
  rw [Env.pendingAnswer, h, List.headD_cons]

/-- RDRTU without a known length, of a frame with its CRC and nothing pending behind it, ends quietly and logs nothing (43
R146). -/
theorem exec_rdrtu_unknown_of_oneChunk {l : LinkId} {s : State} {b : Byte} {bs body : List Byte} {as : List RecvAnswer}
    {ps : List Bool} (hopen : (s.env.link l).isOpen = true) (hcan : s.env.cancelNow = false)
    (hans : (s.env.link l).answers = .data b bs :: as) (hpend : (s.env.link l).pendings = false :: ps)
    (hframe : b :: bs = rtuFrame body) (h1 : 1 ≤ body.length) (h2 : body.length ≤ 258) :
    ∃ u, exec (.rdrtu l 260 .unknown) s = .next u ∧ FrameRead (b :: bs) s u ∧
      u.env = (s.env.afterSample.afterRecv l 260).afterPending l ∧ u.log = s.log := by
  have hlen : (b :: bs).length = body.length + 2 := by rw [hframe, rtuFrame_length]
  have hmatch : crcMatches (b :: bs) = true := by rw [hframe, rtuFrame, crcMatches_pair, hiByte_append_loByte]
  have hquiet : (oneChunk l s (b :: bs)).env.pendingAnswer l = false := Env.pendingAnswer_of_cons (ps := ps) <|
    (congrArg Link.pendings (Env.afterRecv_link s.env.afterSample l 260)).trans
      ((congrArg Link.pendings (Env.afterSample_link s.env l)).trans hpend)
  have hv := rtuVerdict_of_quiet hquiet (by rw [oneChunk_rxlen]; omega)
    ((congrArg crcMatches (oneChunk_rxFrame l s _)).trans hmatch)
  have hexec := execReader_of_oneChunk hopen hcan hans (by omega) hv
  obtain ⟨hleaves, -⟩ := readersChangeOnlyWhatTheyWrite l 260 .unknown _ s _ (List.mem_pair.mpr (.inr rfl)) hexec
  have hread := oneChunk_rxlen l s (b :: bs)
  exact ⟨_, hexec, ⟨congrArg ReadOutcome.success hread, hread, oneChunk_holds l s _, hleaves⟩, rfl, rfl⟩

/-- RDMBAP has no warning to raise (60_exceptions R229): its tests write no register. -/
theorem exec_rdmbap_log {l : LinkId} {cap : Nat} {s t : State} (h : exec (.rdmbap l cap) s = .next t) : t.log = s.log := by
  obtain rfl := execReader_eq_next h
  refine readLoop_induct (P := fun u => u.log = s.log) (Q := fun _ t => t.log = s.log)
    (fun _ h _ => h) (fun _ h => h) (fun _ h => h) (fun _ h => h) (fun _ _ h => h) ?_ ?_ cap (s.setRxlen 0) rfl
  · exact fun u b bs o w h _ _ hw => mbapVerdict_unchanged hw ▸ h
  · exact fun u b bs w h _ _ hw => mbapVerdict_unchanged hw ▸ h

/-! ### The steps of an exchange -/

/-- A good state of direction R2T, with nothing handed over from outside, whose sequencer performs the rule of `c` next. -/
structure R2tAt (c : CState) (s : State) : Prop where
  inv : Inv s
  dir : s.dir = .r2t
  issue : s.issue = []
  cstate : s.cstate = c

section Steps

variable {c : CState} {s : State}

theorem R2tAt.isOpen (h : R2tAt c s) (hc : c ≠ .closed) (l : LinkId) : (s.env.link l).isOpen = true :=
  h.inv.isOpen (h.cstate.trans_ne hc) l

theorem R2tAt.bothOpen (h : R2tAt c s) (hc : c ≠ .closed) : BothOpen s := ⟨h.isOpen hc .M, h.isOpen hc .S⟩

/-- What CYC.R2T answers is the step's answer, and it is a good state again. -/
theorem R2tAt.step {c' : CState} {t : State} (h : R2tAt c s) (hc : c ≠ .closed) (ht : exec .cycR2t s = .next t)
    (hi : t.issue = s.issue) (hc' : t.cstate = c') : Machine.step s = .next t ∧ R2tAt c' t := by
  have hstep : Machine.step s = .next t := by
    rw [step_cycleOf h.issue (h.cstate.trans_ne hc), h.dir]
    exact ht
  exact ⟨hstep, step_inv h.inv hstep, (step_runKeeps hstep).dir.trans h.dir, hi.trans h.issue, hc'⟩

/-- State Idle (46 R191). -/
theorem r2t_idle_step (h : R2tAt .idle s) :
    ∃ t, (step s = .next t ∧ R2tAt .awaitMasterRequest t) ∧ t.env = s.env ∧ t.txid = s.txid ∧ t.log = s.log :=
  ⟨_, h.step (by decide) ((idleStepBeginsTheCycle s h.cstate).2 h.dir) rfl rfl, rfl, rfl, rfl⟩

/-- State AwaitMasterRequest, the request in one chunk (46 R192, R193). -/
theorem r2t_request_step {b : Byte} {bs body : List Byte} {as : List RecvAnswer} {ps : List Bool}
    (h : R2tAt .awaitMasterRequest s) (hcan : s.env.cancelNow = false) (hframe : b :: bs = rtuFrame body)
    (h1 : 1 ≤ body.length) (h2 : body.length ≤ 258) (hans : s.env.master.answers = .data b bs :: as)
    (hpend : s.env.master.pendings = false :: ps) :
    ∃ t, (step s = .next t ∧ R2tAt .forwardToSlave t) ∧ t.env = (s.env.afterSample.afterRecv .M 260).afterPending .M ∧
      t.txid = s.txid ∧ t.sentTid = s.txid ∧ t.log = s.log ∧
      Staged ([hiByte s.txid, loByte s.txid, 0x00#8, 0x00#8, BitVec.ofNat 8 (body.length / 256),
        BitVec.ofNat 8 body.length] ++ body) t := by
  have hrx : (b :: bs).length = body.length + 2 := by rw [hframe, rtuFrame_length]
  obtain ⟨u, hread, hu, henv, hlog⟩ :=
    exec_rdrtu_unknown_of_oneChunk (h.isOpen (by decide) .M) hcan hans hpend hframe h1 h2
  obtain ⟨-, -, -, htxid, -, -, -, -, -, hissue, -⟩ := hu.leaves
  obtain ⟨-, hconverted⟩ := r2tRequestIsConverted
  obtain ⟨buf, hconv, hheld, -⟩ := hconverted u body _ _ h1 h2 (Nat.le_of_eq (hrx.symm.trans hu.rxlen.symm))
    (hframe ▸ hu.holds)
  obtain ⟨hsuccess, -, -⟩ := r2tAwaitMasterRequestStep s u h.dir h.cstate (h.bothOpen (by decide)) hread
  have hout : u.outcome = .success (body.length + 2) := hu.outcome.trans (congrArg _ hrx)
  rw [htxid] at hheld
  exact ⟨_, h.step (by decide) (hsuccess _ _ hout hconv) hissue rfl, henv, htxid, htxid, hlog,
    ⟨rfl, by simp, by simp only [List.length_append, List.length_cons, List.length_nil]; omega, hheld⟩⟩

/-- State ForwardToSlave, the send accepted (46 R194, R196). -/
theorem r2t_forward_step {frame : List Byte} {as : List SendAnswer} (h : R2tAt .forwardToSlave s) (hst : Staged frame s)
    (hans : s.env.slave.sends = .ok :: as) :
    ∃ t, (step s = .next t ∧ R2tAt .awaitSlaveResponse t) ∧ t.env = s.env.afterSend .S frame ∧ t.txid = s.txid + 1#16 ∧
      t.sentTid = s.sentTid ∧ t.log = s.log := by
  have hsend := exec_send_of_ok (h.isOpen (by decide) .S) hst hans
  obtain ⟨hok, -⟩ := r2tForwardToSlaveStep s _ h.dir h.cstate (h.bothOpen (by decide)) hsend
  exact ⟨_, h.step (by decide) (hok rfl) rfl rfl, rfl, ofNat_toNat_succ s.txid, rfl, rfl⟩

/-- State AwaitSlaveResponse, the response in one chunk (46 R197, R199, R200). -/
theorem r2t_response_step {t1 t0 p1 p0 l1 l0 : Byte} {body : List Byte} {as : List RecvAnswer}
    (h : R2tAt .awaitSlaveResponse s) (hcan : s.env.cancelNow = false)
    (hfield : l1.toNat * 256 + l0.toNat = body.length) (h1 : 1 ≤ body.length) (h2 : body.length ≤ 254)
    (hans : s.env.slave.answers = .data t1 ([t0, p1, p0, l1, l0] ++ body) :: as) :
    ∃ t, (step s = .next t ∧ R2tAt .forwardToMaster t) ∧ t.env = s.env.afterSample.afterRecv .S 260 ∧ t.txid = s.txid ∧
      t.log = (if t1 ++ t0 = s.sentTid then s.log else s.log ++ [.wTid]) ∧ Staged (rtuFrame body) t := by
  obtain ⟨u, hread, hu, henv⟩ := exec_rdmbap_of_oneChunk (h.isOpen (by decide) .S) hcan hans
    (by simp only [List.length_cons, List.length_append, List.length_nil]; omega) rfl hfield h1
  obtain ⟨-, -, -, htxid, -, -, hsent, -, -, hissue, -⟩ := hu.leaves
  obtain ⟨buf, hconv, hheld, -⟩ := r2tResponseIsConverted u t1 t0 p1 p0 l1 l0 body h1 h2 (Nat.le_of_eq hu.rxlen.symm) hu.holds
  obtain ⟨hsuccess, -, -⟩ := r2tAwaitSlaveResponseStep s u h.dir h.cstate (h.bothOpen (by decide)) hread
  have hframe := rtuFrame_length body
  rw [← exec_rdmbap_log hread, ← hsent]
  exact ⟨_, h.step (by decide) (hsuccess _ _ hu.outcome hconv) hissue rfl, henv, htxid, rfl,
    ⟨hframe.symm, by omega, by omega, hheld⟩⟩

/-- State ForwardToMaster, the send accepted (46 R198). -/
theorem r2t_reply_step {frame : List Byte} {as : List SendAnswer} (h : R2tAt .forwardToMaster s) (hst : Staged frame s)
    (hans : s.env.master.sends = .ok :: as) :
    ∃ t, (step s = .next t ∧ R2tAt .idle t) ∧ t.env = s.env.afterSend .M frame ∧ t.txid = s.txid ∧ t.log = s.log := by
  have hsend := exec_send_of_ok (h.isOpen (by decide) .M) hst hans
  obtain ⟨hok, -⟩ := forwardToMasterStep s _ .cycR2t (.inr ⟨h.dir, rfl⟩) h.cstate (h.bothOpen (by decide)) hsend
  exact ⟨_, h.step (by decide) (hok rfl) rfl rfl, rfl, rfl, rfl⟩

end Steps

/-- Settles O60: the five state rules in a row. RDRTU touches neither the slave link nor what the master link has been sent, and
a good request logs nothing; SENT_TID keeps the id under which the request went while TXID advances. -/
theorem r2tExchangeForwardsRequestAndResponse : Obligations.R2tExchangeForwardsRequestAndResponse := by
  intro s t1 t0 p1 p0 l1 l0 b0 r0 req body mrest srest ps cs ms ss hi hd hc hissue hcan hcans hreq hmans hpend hfield hlen
    hsans hssends hmsends
  obtain ⟨s1, ⟨h1, hat1⟩, henv1, htxid1, hlog1⟩ := r2t_idle_step ⟨hi, hd, hissue, hc⟩
  rw [← henv1] at hcan hcans hmans hpend hsans hssends hmsends ⊢
  obtain ⟨s2, ⟨h2, hat2⟩, henv2, htxid2, hsent2, hlog2, hst2⟩ := r2t_request_step (body := r0 :: req) hat1
    (Env.cancelNow_of_cons hcan hcans) rfl (Nat.succ_pos _) hreq hmans hpend
  have hslave2 : s2.env.link .S = s1.env.link .S := by
    rw [henv2, Env.afterPending_other _ (by decide), Env.afterRecv_other _ _ (by decide), Env.afterSample_link]
  rw [show s1.env.slave = s2.env.link .S from hslave2.symm] at hsans hssends ⊢
  obtain ⟨s3, ⟨h3, hat3⟩, henv3, htxid3, hsent3, hlog3⟩ := r2t_forward_step hat2 hst2 hssends
  have hsans3 : (s3.env.link .S).answers = (s2.env.link .S).answers := by rw [henv3, Env.afterSend_link]
  have hcan3 : s3.env.cancelNow = false := by
    refine Env.cancelNow_of_cons (cs := cs) ?_ ?_
    · simp [henv3, henv2, Env.cancelNow_of_cons hcan hcans]
    · simp [henv3, henv2, hcans]
  obtain ⟨s4, ⟨h4, hat4⟩, henv4, htxid4, hlog4, hst4⟩ := r2t_response_step hat3 hcan3 hfield (Nat.succ_pos _) hlen
    (hsans3.trans hsans)
  obtain ⟨hmtx4, hmsends4⟩ :
      (s4.env.link .M).tx = (s1.env.link .M).tx ∧ (s4.env.link .M).sends = (s1.env.link .M).sends := by
    simp [henv4, henv3, henv2, Env.afterSend_other]
  have hmsends4 := hmsends4.trans hmsends
  obtain ⟨s5, ⟨h5, hat5⟩, henv5, htxid5, hlog5⟩ := r2t_reply_step hat4 hst4 hmsends4
  have htxid : s5.txid = s.txid + 1#16 := by rw [htxid5, htxid4, htxid3, htxid2, htxid1]
  have hlog : s5.log = if t1 ++ t0 = s.txid then s.log else s.log ++ [.wTid] := by
    rw [hlog5, hlog4, hsent3, hsent2, htxid1, hlog3, hlog2, hlog1]
  have hslave : (s5.env.link .S).tx = (s2.env.link .S).tx ++ ([hiByte s.txid, loByte s.txid, 0x00#8, 0x00#8,
      BitVec.ofNat 8 ((r0 :: req).length / 256), BitVec.ofNat 8 (r0 :: req).length] ++ (r0 :: req)) := calc
    (s5.env.link .S).tx = (s3.env.link .S).tx := by simp [henv5, henv4, Env.afterSend_other]
    _ = _ := by rw [henv3, Env.afterSend_tx_of_ok _ hssends, htxid1]
  have hmaster := Env.afterSend_tx_of_ok (rtuFrame (b0 :: body)) hmsends4
  rw [← henv5, hmtx4] at hmaster
  refine ⟨s5, ⟨s1, h1, s2, h2, s3, h3, s4, h4, s5, h5, rfl⟩, hat5.cstate, htxid, ?_, ?_, hlog⟩ <;> rw [List.append_assoc]
  · exact hslave
  · exact hmaster

end Sys2Proof.Machine
end

section
/-! SUPPORT. The link operations of the converters (47_link_ops R210 to R214): what FLUSH drops of the stream, SEND under each answer
of the link, the whole of TEARDOWN, and that nothing runs in Closed. -/

namespace Sys2Proof.Machine

open Sys2Proof.Spec

/-! ### What FLUSH drops -/

/-- The bytes a discard removes are the first ones unread, whether it ends inside a chunk, at its end or past it (20_memory
R47). -/
theorem unread_dropBytes (d : Nat) (as : List RecvAnswer) : unread (dropBytes d as) = (unread as).drop d := by
  fun_induction dropBytes d as with
  | case1 as => rfl
  | case2 d b bs as c cs hcut =>
    have hinside : d + 1 < (b :: bs).length := not_le.mp (mt List.drop_eq_nil_of_le (hcut ▸ List.cons_ne_nil c cs))
    rw [unread, unread, List.drop_append_of_le_length hinside.le, hcut]
  | case3 d b bs as hcut ih =>
    have hskip : d + 1 - (b :: bs).length = d - bs.length := Nat.add_sub_add_right d 1 bs.length
    rw [ih, unread, List.drop_append, hcut, List.nil_append, hskip]
  | case4 d as hno =>
    rw [unread, List.drop_nil]
    exact hno

/-- A discard stops at the first answer that is no data (20_memory R47; log 9). -/
theorem pastUnread_dropBytes (d : Nat) (as : List RecvAnswer) : pastUnread (dropBytes d as) = pastUnread as := by
  fun_induction dropBytes d as with
  | case1 as => rfl
  | case2 d b bs as c cs hcut => rfl
  | case3 d b bs as hcut ih => exact ih
  | case4 d as hno => rfl

/-- Settles O38: FLUSH is LinkDiscard on the slave link, and a discard drops a prefix of what is unread. -/
theorem flushDropsAPrefixAndWritesNothing : Obligations.FlushDropsAPrefixAndWritesNothing := fun _ hopen =>
  ⟨completed_of_next (flushSlave_of_open hopen), unread_dropBytes _ _, pastUnread_dropBytes _ _⟩

/-! ### SEND -/

theorem recordSend_of_ok {l : LinkId} {s : State} (frame : List Byte) (h : s.env.sendAnswer l = .ok) :
    recordSend l frame s = (none, s.setEnv (s.env.afterSend l frame)) := by
  rw [recordSend, h]

theorem recordSend_of_fault {l : LinkId} {s : State} {k : Category} {r : Nat} (frame : List Byte)
    (h : s.env.sendAnswer l = .fault k r) :
    recordSend l frame s = (some k, (s.setEnv (s.env.afterSend l frame)).setOutcome (.fatal (.rawError k))) := by
  rw [recordSend, h]

/-- SEND of a staged frame on an open link hands the frame over, whatever the link answers (47 R211). -/
theorem exec_send_of_staged {l : LinkId} {s : State} {frame : List Byte} (hopen : (s.env.link l).isOpen = true)
    (hst : Staged frame s) : exec (.send l) s =
      .next ((recordSend l frame s).2.setResult (sendResult (recordSend l frame s).1)) := by
  obtain ⟨hlen, hpos, hle, hheld⟩ := hst
  rw [exec, execSend, sendStaged_of_held (hlen ▸ hpos) (hlen ▸ hle) hopen (hlen ▸ slice_of_holds hheld), andThen_next]

theorem Env.afterSend_leaves (e : Env) (l : LinkId) (frame : List Byte) : SendLeaves l e (e.afterSend l frame) := by
  rw [SendLeaves, Env.afterSend_link]
  exact ⟨rfl, rfl, rfl, rfl, rfl, fun m hm => Env.afterSend_other e frame hm, Env.afterSend_cancel e l frame,
    Env.afterSend_cancels e l frame⟩

/-- Settles O39: SEND records the answer of one LinkSend of the whole frame; a fault leaves at least its last byte undelivered. -/
theorem sendTransmitsTheStagedFrame : Obligations.SendTransmitsTheStagedFrame := by
  intro l s frame hlen h1 h2 hheld hopen
  have hexec := exec_send_of_staged hopen ⟨hlen.symm, hlen ▸ h1, hlen ▸ h2, hheld⟩
  have hleaves := Env.afterSend_leaves s.env l frame
  refine ⟨fun hok => ⟨s.env.afterSend l frame, ?_, ?_, ?_, hleaves⟩,
    fun k r hfault => ⟨s.env.afterSend l frame, min r (frame.length - 1), by omega, ?_, ?_, ?_, hleaves⟩⟩
  · rw [hexec, recordSend_of_ok frame hok]
    rfl
  · rw [Env.afterSend_link, hok, SendAnswer.delivered]
  · rw [Env.afterSend_link, hok, SendAnswer.accepted]
  · rw [hexec, recordSend_of_fault frame hfault]
    rfl
  · rw [Env.afterSend_link, hfault, SendAnswer.delivered]
  · rw [Env.afterSend_link, hfault, SendAnswer.accepted]

theorem sendStaged_of_nothing {l : LinkId} {s : State} (h : s.txlen = 0) : sendStaged l s = .refused (.nothingStaged 0) := by
  rw [sendStaged, h, if_neg (by omega)]

/-- Settles O40: SEND's requirement on TXLEN comes before the link is looked at. -/
theorem sendWithNothingStagedIsRefused : Obligations.SendWithNothingStagedIsRefused := fun _ _ h =>
  andThen_of_refused (sendStaged_of_nothing h)

/-! ### TEARDOWN and Closed -/

/-- Settles O41: TEARDOWN is the two closes and the write of CSTATE. -/
theorem teardownClosesBothLinks : Obligations.TeardownClosesBothLinks := fun o _ h =>
  completed_of_next (teardown_of_bothOpen o h)

theorem stepT2r_of_closed {s : State} (hc : s.cstate = .closed) : stepT2r s = .fault .closed := by
  rw [stepT2r, hc]

theorem stepR2t_of_closed {s : State} (hc : s.cstate = .closed) : stepR2t s = .fault .closed := by
  rw [stepR2t, hc]

/-- Settles O7: the step tests CSTATE before it fetches, and neither sequencer has a rule for Closed. -/
theorem closedIsTerminal : Obligations.ClosedIsTerminal := by
  refine ⟨fun s hc => step_of_closed hc, fun s hc hd => ?_, fun s hc hd => ?_⟩
  · rw [exec_cycT2r hd, stepT2r_of_closed hc]
    rfl
  · rw [exec_cycR2t hd, stepR2t_of_closed hc]
    rfl

end Sys2Proof.Machine
end

section
/-! SUPPORT. O34 and O57: the exceptions (60_exceptions R228, R229, R232). A run of a reader's pseudocode warns in one place only,
RDRTU's quiet end without a known length, and there it succeeds; so a step that takes a fatal outcome has warned of nothing. -/

namespace Sys2Proof.Machine

open Sys2Proof.Spec

/-! ### What a reader warns of -/

/-- Nothing was warned of in between (10_state R28, R29). -/
structure SameWarnings (s t : State) : Prop where
  log : t.log = s.log
  warn : t.warn = s.warn

theorem SameWarnings.trans {s t u : State} (h : SameWarnings s t) (k : SameWarnings t u) : SameWarnings s u :=
  ⟨k.log.trans h.log, k.warn.trans h.warn⟩

theorem received_append_sameWarnings (l : LinkId) (cap : Nat) (s : State) (c : List Byte) :
    SameWarnings s ((received l cap s).append c) := ⟨rfl, rfl⟩

/-- A run of RDMBAP makes no CRC check and warns of nothing (60_exceptions R228, R229). -/
theorem mbapRun_outcome_warnings {l : LinkId} {cap : Nat} {s t : State} {o : ReadOutcome} (h : MbapRun l cap s o t) :
    o ≠ .fatal .crcMismatch ∧ SameWarnings s t := by
  induction h with
  | aborted | bufferFull | disconnected | timedOut | rawError => exact ⟨nofun, rfl, rfl⟩
  | success _ _ _ _ _ _ _ hu | tooMuchData _ _ _ _ _ _ _ hu =>
    subst hu
    exact ⟨nofun, received_append_sameWarnings l cap _ _⟩
  | readOnShort _ _ _ _ _ _ _ _ hu _ _ ih | readOnLong _ _ _ _ _ _ _ _ _ hu _ _ _ _ ih =>
    subst hu
    exact ih.imp_right (received_append_sameWarnings l cap _ _).trans

theorem chunk_sameWarnings {l : LinkId} {cap : Nat} {s u : State} {p : Bool} (h : Chunk l cap s u p) : SameWarnings s u := by
  obtain ⟨-, b, bs, -, -, rfl⟩ := h
  exact (received_append_sameWarnings l cap s (b :: bs)).trans ⟨rfl, rfl⟩

/-- A run of RDRTU warns of at most one bad CRC, and only where it succeeds without a known length (43 R146). -/
theorem rtuRun_warnings {l : LinkId} {cap : Nat} {exp : Expectation} {s t : State} {o : ReadOutcome}
    (h : RtuRun l cap exp s o t) :
    SameWarnings s t ∨ (exp = .unknown ∧ (∃ n, o = .success n) ∧ t.log = s.log ++ [.wCrc]) := by
  induction h with
  | aborted | bufferFull | disconnected | timedOut | rawError => exact .inl ⟨rfl, rfl⟩
  | short2 _ _ hc | tooMuchData _ _ _ _ hc | shortcut _ _ _ hc => exact .inl (chunk_sameWarnings hc)
  | exact _ _ _ _ _ hc | mismatch _ _ _ _ _ hc | quietGood _ _ _ hc =>
    exact .inl ((chunk_sameWarnings hc).trans ⟨rfl, rfl⟩)
  | quietBad _ _ _ hc he | quietOne _ _ hc he =>
    exact .inr ⟨he, ⟨_, rfl⟩, congrArg (· ++ [LogEvent.wCrc]) (chunk_sameWarnings hc).log⟩
  | readOnKnown _ _ _ _ _ _ hc _ _ _ _ _ ih | readOnUnknown _ _ _ _ hc _ _ ih =>
    have hchunk := chunk_sameWarnings hc
    exact ih.imp hchunk.trans fun ⟨he, ho, hlog⟩ => ⟨he, ho, hlog.trans (congrArg (· ++ [LogEvent.wCrc]) hchunk.log)⟩

/-- Settles O34: the kinds and the warnings are read off the run that each reader is. -/
theorem readerOutcomesAreThoseOfTheTable : Obligations.ReaderOutcomesAreThoseOfTheTable := by
  refine ⟨fun l cap s t h => ?_, fun l cap s t h => ?_, fun l cap e s t h => ?_⟩
  · obtain rfl := execReader_eq_next h
    obtain ⟨hcrc, ⟨hlog, hwarn⟩⟩ := mbapRun_outcome_warnings (readLoop_mbapRun (l := l) (cap := cap) s)
    exact ⟨hcrc, hlog, hwarn⟩
  · obtain ⟨hcrc, hmuch⟩ := exec_rdrtu_unknown_outcome h
    obtain rfl := execReader_eq_next h
    obtain ⟨hlog, -⟩ | ⟨-, -, hlog⟩ := rtuRun_warnings (readLoop_rtuRun l cap .unknown s)
    · exact ⟨hcrc, hmuch, .inl hlog⟩
    · exact ⟨hcrc, hmuch, .inr hlog⟩
  · obtain rfl := execReader_eq_next h
    obtain ⟨hlog, hwarn⟩ | ⟨he, -, -⟩ := rtuRun_warnings (readLoop_rtuRun l cap (.known e) s)
    · exact ⟨hlog, hwarn⟩
    · cases he

/-! ### What an operation that fails leaves for TEARDOWN -/

/-- A fatal outcome has been recorded, and the registers that R232 says keep their values have kept them. -/
structure FatalExit (s u : State) : Prop where
  outcome : ∃ o, u.outcome = .fatal o
  warnings : SameWarnings s u
  txid : u.txid = s.txid
  savedTid : u.savedTid = s.savedTid
  savedPid : u.savedPid = s.savedPid
  sentTid : u.sentTid = s.sentTid
  explen : u.explen = s.explen
  txlen : u.txlen = s.txlen
  txb : u.txb = s.txb

section Fatal

variable {l : LinkId} {cap : Nat} {s t u : State} {o : FatalOutcome}

theorem readFrame_fatalExit {verdict : State → Option ReadOutcome × State} (hv : ∀ u, ReaderKeeps l u (verdict u).2)
    (hw : (readLoop l cap verdict cap (s.setRxlen 0)).1 = .fatal o →
      SameWarnings (s.setRxlen 0) (readLoop l cap verdict cap (s.setRxlen 0)).2)
    (h : readFrame l cap verdict s = .next (.fatal o, u)) : FatalExit s u := by
  obtain ⟨-, -, hp⟩ := readFrame_eq_next h
  obtain ⟨ho, rfl⟩ := Prod.mk.inj hp
  obtain ⟨hlog, hwarn⟩ := hw ho.symm
  have hk := readLoop_keeps (cap := cap) hv cap (s.setRxlen 0)
  exact ⟨⟨o, ho.symm⟩, ⟨hlog, hwarn⟩, hk.txid, hk.savedTid, hk.savedPid, hk.sentTid, hk.explen, hk.txlen, hk.txb⟩

theorem rdMbap_fatalExit (h : rdMbap l cap s = .next (.fatal o, u)) : FatalExit s u :=
  readFrame_fatalExit (.mbapVerdict l) (fun _ => (mbapRun_outcome_warnings (readLoop_mbapRun s)).2) h

/-- The one warning of RDRTU comes with a success. -/
theorem rdRtu_fatalExit {exp : Expectation} (h : rdRtu l cap exp s = .next (.fatal o, u)) : FatalExit s u := by
  refine readFrame_fatalExit (.rtuVerdict l exp) (fun ho => ?_) h
  obtain hsame | ⟨-, ⟨n, hn⟩, -⟩ := rtuRun_warnings (readLoop_rtuRun l cap exp s)
  · exact hsame
  · cases hn.symm.trans ho

/-! ### The state rules that end in Closed -/

/-- A reading state closes only behind a fatal outcome of its reader. -/
theorem reading_closed {x : Host.Outcome (ReadOutcome × State) Fault Refusal} {k : Nat → State → Out} {c : CState}
    (hup : ∀ p, x = .next p → Updates s p.2) (hs : s.cstate ≠ .closed) (hc : c ≠ .closed)
    (hfatal : ∀ o u, x = .next (.fatal o, u) → FatalExit s u)
    (h : andThen x (afterRead fun n v => andThen (k n v) fun w => .next (w.setCState c)) = .next t)
    (ht : t.cstate = .closed) : ∃ u, FatalExit s u ∧ t = tornDown u := by
  obtain ⟨⟨o, u⟩, hp, h⟩ := andThen_eq_next h
  cases o with
  | success n =>
    obtain ⟨w, -, h⟩ := andThen_eq_next h
    cases h
    exact absurd ht hc
  | timeout =>
    cases h
    exact absurd ((hup _ hp).cstate.symm.trans ht) hs
  | fatal o => exact ⟨u, hfatal o u hp, teardown_tornDown (o := o) h⟩

/-- A forwarding state closes only behind a failed SEND, which records the fault; a FLUSH before it touches no register. -/
theorem forwarding_closed {e : Env} {k : State → State} {c : CState} (hc : c ≠ .closed)
    (h : andThen (sendStaged l (s.setEnv e)) (afterSend fun u => .next ((k u).setCState c)) = .next t)
    (ht : t.cstate = .closed) : ∃ u, FatalExit s u ∧ t = tornDown u := by
  obtain ⟨p, hp, h⟩ := andThen_eq_next h
  obtain ⟨-, -, frame, -, rfl⟩ := sendStaged_eq_next hp
  obtain ⟨-, hrec⟩ | ⟨a, r, -, hrec⟩ := recordSend_cases l frame (s.setEnv e) <;> rw [hrec] at h
  · cases h
    exact absurd ht hc
  · rw [afterSend_error] at h
    refine ⟨_, ?_, teardown_tornDown h⟩
    exact ⟨⟨.rawError a, rfl⟩, ⟨rfl, rfl⟩, rfl, rfl, rfl, rfl, rfl, rfl, rfl⟩

theorem stepT2r_closed (h : stepT2r s = .next t) (ht : t.cstate = .closed) : ∃ u, FatalExit s u ∧ t = tornDown u := by
  cases hc : s.cstate <;> simp only [stepT2r, hc, reduceCtorEq] at h
  case idle =>
    cases h
    cases ht
  case awaitMasterRequest =>
    exact reading_closed (fun _ => rdMbap_updates) (by simp [hc]) (by decide) (fun _ _ => rdMbap_fatalExit) h ht
  case forwardToSlave =>
    obtain ⟨f, hf, h⟩ := andThen_eq_next h
    obtain ⟨-, rfl⟩ := flushSlave_eq_next hf
    exact forwarding_closed (by decide) h ht
  case awaitSlaveResponse =>
    exact reading_closed (fun _ => rdRtu_updates) (by simp [hc]) (by decide) (fun _ _ => rdRtu_fatalExit) h ht
  case forwardToMaster => exact forwarding_closed (e := s.env) (by decide) h ht

theorem stepR2t_closed (h : stepR2t s = .next t) (ht : t.cstate = .closed) : ∃ u, FatalExit s u ∧ t = tornDown u := by
  cases hc : s.cstate <;> simp only [stepR2t, hc, reduceCtorEq] at h
  case idle =>
    cases h
    cases ht
  case awaitMasterRequest =>
    exact reading_closed (fun _ => rdRtu_updates) (by simp [hc]) (by decide) (fun _ _ => rdRtu_fatalExit) h ht
  case forwardToSlave =>
    exact forwarding_closed (e := s.env) (k := fun u => u.setTxid (u.txid + 1#16)) (by decide) h ht
  case awaitSlaveResponse =>
    exact reading_closed (fun _ => rdMbap_updates) (by simp [hc]) (by decide) (fun _ _ => rdMbap_fatalExit) h ht
  case forwardToMaster => exact forwarding_closed (e := s.env) (by decide) h ht

end Fatal

/-- Settles O57: a step of the sequencer is one state rule, and one that ends in Closed tore down what a failed operation left. -/
theorem fatalOutcomeClosesAndKeepsRegisters : Obligations.FatalOutcomeClosesAndKeepsRegisters := by
  intro s t hissue h ht
  obtain ⟨hopen, -⟩ := step_eq_next h
  rw [step_sequencer hissue hopen] at h
  obtain ⟨v, hv, rfl⟩ := completed_eq_next h
  have hclosed : ∃ u, FatalExit s u ∧ v = tornDown u :=
    of_ite_eq_next (fun hv => stepT2r_closed hv ht) (fun hv => stepR2t_closed hv ht) hv
  obtain ⟨u, ⟨houtcome, ⟨hlog, hwarn⟩, htxid, htid, hpid, hsent, hexplen, htxlen, htxb⟩, rfl⟩ := hclosed
  exact ⟨rfl, rfl, houtcome, hwarn, hlog, htxid, htid, hpid, hsent, hexplen, htxlen, htxb⟩

end Sys2Proof.Machine
end
